-- ==== Sys2Proof/Word.lean ====
section
/-!
DEFINITION. The basic values of the block: bytes, levels, the events of the capture window.
Notation of spec/00_scope.md rules R10 and R12; events of spec/20_memory.md rule R60.
-/

namespace Sys2Proof

/-- A byte: 8 bits, bit 7 the most significant (R10). -/
abbrev Byte := BitVec 8

/-- A level of the line: `true` is on (1, high), `false` is off (0, low) (R12). -/
abbrev Level := Bool

/-- `PulseEvent` of the capture window: one observed level held for a measured number of ticks (R60).
`seq` is the entry's own index. -/
structure Event where
  seq : Nat
  level : Level
  dur : Nat
deriving DecidableEq, Repr, Inhabited

/-- `XORFOLD`: the running exclusive or of a list of bytes, `0x00` for the empty list (R10). -/
def xorFold (bs : List Byte) : Byte := bs.foldl (· ^^^ ·) 0

/-- The eight bits of a byte, most significant first (R66). -/
def byteBits (b : Byte) : List Bool := (List.range 8).map fun k => b.getLsbD (7 - k)

/-- The bits of a byte sequence in line order: byte by byte, each most significant bit first (R66, R67). -/
def bitsOf (bs : List Byte) : List Bool := bs.flatMap byteBits

end Sys2Proof
end

