-- ==== Sys2Proof/Syntax.lean ====
section
/-!
DEFINITION. The operations the block decodes: the interval classes of `RXSTEP` (spec/30_encoding.md R91), the
actions of `TXSTEP` (R94) and the host commands (R97). One constructor per row of spec/opcode_table.json, which
carries as its fields the bits the row leaves open, under the spec's own bit names.
-/

namespace Sys2Proof

/-- A word the block decodes. The three formats of spec/opcode_table.json are separate code spaces: the 9-bit
classifier vector (R90), the 5-bit transmit selector (R94) and the 12-bit command word (R96). -/
inductive Word where
  | vector (v : BitVec 9)
  | selector (t : BitVec 5)
  | command (c : BitVec 12)
deriving DecidableEq, Repr

/-- One row of spec/opcode_table.json each. -/
inductive Instr where
  /-- `GATE` `1 xxxxxxxx`: the silence gate, done before a class is selected (R111). `low` is `V[7:0]`. -/
  | gate (low : BitVec 8)
  /-- `HOLD` `x x0x xx xxx`: no level change (R114). -/
  | hold (m j : Bool) (pp : BitVec 2) (a b c : Bool)
  /-- `NOISE` `x x11 xx xxx`: a change rejected as noise (R115). -/
  | noise (m : Bool) (pp : BitVec 2) (a b c : Bool)
  /-- `FIRST` `x x10 00 xxx`: the first transition of a message (R116). -/
  | first (m a b c : Bool)
  /-- `CALIB` `x x10 01 xxx`: the second transition, which fixes the unit (R117). -/
  | calib (m a b c : Bool)
  /-- `RUNT` `x 010 10 0xx`: a data interval of count 0 (R118). Bit `C` is 0: with `C = 1` the word is `LONG`. -/
  | runt (b : Bool)
  /-- `ZERO` `x 010 10 10x`: a data interval of count 1, bit 0 (R119). Bit `C` is 0: with `C = 1` the word is `LONG`. -/
  | zero
  /-- `ONE` `x 010 10 110`: a data interval of count 2, bit 1 (R120). -/
  | one
  /-- `LONG` `x 010 10 xx1`: a data interval of count 3 or more (R118). -/
  | long (a b : Bool)
  /-- `REC` `x 110 10 xxx`: a data interval of `MIN` mode, recorded only (R121). -/
  | recOnly (a b c : Bool)
  /-- `TIDLE` `1xxxx`: the transmitter is idle (R185). -/
  | tidle (h e r bt : Bool)
  /-- `THOLD` `01xxx`: keep the level one more tick (R186). -/
  | thold (e r bt : Bool)
  /-- `TZERO` `00010`: the next frame bit is 0 (R187). -/
  | tzero
  /-- `TONE` `00011`: the next frame bit is 1 (R188). -/
  | tone
  /-- `TEND` `0000x`: every bit is out, the end silence begins (R189). -/
  | tend (bt : Bool)
  /-- `TDONE` `001xx`: the end silence is over (R190). -/
  | tdone (r bt : Bool)
  /-- `NOP`, op `0x0` (R201); `arg` is ignored. -/
  | nop (arg : Byte)
  /-- `TXCLR`, op `0x1` (R202); `arg` is ignored. -/
  | txclr (arg : Byte)
  /-- `TXPUSH`, op `0x2` (R203); `arg` is the byte to append. -/
  | txpush (arg : Byte)
  /-- `TXGO`, op `0x3` (R204); `arg` is ignored. -/
  | txgo (arg : Byte)
  /-- `RXACK`, op `0x4` (R205); `arg` is ignored. -/
  | rxack (arg : Byte)
  /-- `ERRCLR`, op `0x5` (R206); `arg` is ignored. -/
  | errclr (arg : Byte)
  /-- Reserved op `0x6`, `0x7` (R207); `lo` is bit 0 of the op. -/
  | reserved67 (lo : Bool) (arg : Byte)
  /-- Reserved op `0x8` to `0xF` (R207); `lo` is bits 2 to 0 of the op. -/
  | reserved8F (lo : BitVec 3) (arg : Byte)
deriving DecidableEq, Repr

/-- Is it `GATE`, after which `RXSTEP` still selects one class in the same tick (R91, R111)? -/
def Instr.isGate : Instr → Bool
  | .gate _ => true
  | .hold .. | .noise .. | .first .. | .calib .. | .runt _ | .zero | .one | .long .. | .recOnly .. => false
  | .tidle .. | .thold .. | .tzero | .tone | .tend _ | .tdone .. => false
  | .nop _ | .txclr _ | .txpush _ | .txgo _ | .rxack _ | .errclr _ | .reserved67 .. | .reserved8F .. => false

/-- Is it a host command (R97)? -/
def Instr.isCommand : Instr → Bool
  | .gate _ | .hold .. | .noise .. | .first .. | .calib .. | .runt _ | .zero | .one | .long .. | .recOnly .. => false
  | .tidle .. | .thold .. | .tzero | .tone | .tend _ | .tdone .. => false
  | .nop _ | .txclr _ | .txpush _ | .txgo _ | .rxack _ | .errclr _ | .reserved67 .. | .reserved8F .. => true

/-- The row's name in spec/opcode_table.json. -/
def Instr.mnemonic : Instr → String
  | .gate _ => "GATE"
  | .hold .. => "HOLD"
  | .noise .. => "NOISE"
  | .first .. => "FIRST"
  | .calib .. => "CALIB"
  | .runt _ => "RUNT"
  | .zero => "ZERO"
  | .one => "ONE"
  | .long .. => "LONG"
  | .recOnly .. => "REC"
  | .tidle .. => "TIDLE"
  | .thold .. => "THOLD"
  | .tzero => "TZERO"
  | .tone => "TONE"
  | .tend _ => "TEND"
  | .tdone .. => "TDONE"
  | .nop _ => "NOP"
  | .txclr _ => "TXCLR"
  | .txpush _ => "TXPUSH"
  | .txgo _ => "TXGO"
  | .rxack _ => "RXACK"
  | .errclr _ => "ERRCLR"
  | .reserved67 .. => "RESERVED_6_7"
  | .reserved8F .. => "RESERVED_8_F"

end Sys2Proof
end

