-- ==== Sys2Proof/WellFormed.lean ====
section
/-!
DEFINITION. Which terms of `Instr` stand for a word the block can form: the reachable classifier vectors of
spec/30_encoding.md rule R92 and the selectors rule R94 can give. Every command word is well formed (R97).
-/

namespace Sys2Proof

/-- The comparator ladder is a thermometer code: `C` implies `B` implies `A` (R90, R92). -/
def thermometer (a b c : Bool) : Bool := (!c || b) && (!b || a)

/-- `PP = 11` cannot occur (R92). -/
def phaseReachable (pp : BitVec 2) : Bool := pp != 3

/-- With `R = 0` the bit `Bt` is taken as 0 (R94). -/
def bitTaken (r bt : Bool) : Bool := r || !bt

/-- A reachable word. For `GATE`: `J = 1` cannot occur with `G = 1`, and `P = 00` there by rule R90. For
`TIDLE`: `TXPHASE` is not both `T_IDLE` and `T_END`. -/
def Instr.wellFormed : Instr → Bool
  | .gate low => !low.getLsbD 5 && (low.extractLsb' 3 2 == 0)
      && thermometer (low.getLsbD 2) (low.getLsbD 1) (low.getLsbD 0)
  | .hold _ _ pp a b c => phaseReachable pp && thermometer a b c
  | .noise _ pp a b c => phaseReachable pp && thermometer a b c
  | .first _ a b c => thermometer a b c
  | .calib _ a b c => thermometer a b c
  | .runt b => thermometer false b false
  | .zero => true
  | .one => true
  | .long a b => thermometer a b true
  | .recOnly a b c => thermometer a b c
  | .tidle _ e r bt => !e && bitTaken r bt
  | .thold _ r bt => bitTaken r bt
  | .tzero => true
  | .tone => true
  | .tend bt => bitTaken false bt
  | .tdone r bt => bitTaken r bt
  | .nop _ => true
  | .txclr _ => true
  | .txpush _ => true
  | .txgo _ => true
  | .rxack _ => true
  | .errclr _ => true
  | .reserved67 _ _ => true
  | .reserved8F _ _ => true

end Sys2Proof
end

