-- ==== Sys2Proof/Decode.lean ====
section
/-!
DEFINITION. The decode table of spec/30_encoding.md (rules R90 to R97) and spec/opcode_table.json: the field
layouts, the decoder, total on every word, and the encoder written from the same layouts.
-/

namespace Sys2Proof

/-- The classifier vector `V = {G, M, X, J, P1, P0, A, B, C}`, bit 8 down to 0 (R90). -/
def vectorOf (g m x j : Bool) (pp : BitVec 2) (a b c : Bool) : BitVec 9 :=
  BitVec.ofBool g ++ BitVec.ofBool m ++ BitVec.ofBool x ++ BitVec.ofBool j ++ pp
    ++ BitVec.ofBool a ++ BitVec.ofBool b ++ BitVec.ofBool c

/-- The transmit selector `T = {I, H, E, R, Bt}`, bit 4 down to 0 (R94). -/
def selectorOf (i h e r bt : Bool) : BitVec 5 :=
  BitVec.ofBool i ++ BitVec.ofBool h ++ BitVec.ofBool e ++ BitVec.ofBool r ++ BitVec.ofBool bt

/-- The command word: `cmd[11:8] = op`, `cmd[7:0] = arg` (R96). -/
def commandWord (op : BitVec 4) (arg : Byte) : BitVec 12 := op ++ arg

/-- Why a word is no instruction. -/
inductive DecodeReject where
  /-- An accepted transition with `PP = 11`, which no row of rule R91 matches (R92). -/
  | unreachablePhase
deriving DecidableEq, Repr

/-- The classes of rule R91 with `GATE` before them (R111). Where rows overlap on unreachable vectors
(`C = 1` with `A = 0` or `B = 0`) the row that has bit `C` in its pattern, `LONG`, is taken (log entry 8). -/
def decodeVector (v : BitVec 9) : Except DecodeReject Instr :=
  let m := v.getLsbD 7
  let x := v.getLsbD 6
  let j := v.getLsbD 5
  let pp := v.extractLsb' 3 2
  let a := v.getLsbD 2
  let b := v.getLsbD 1
  let c := v.getLsbD 0
  if v.getLsbD 8 then .ok (.gate (v.extractLsb' 0 8))
  else if !x then .ok (.hold m j pp a b c)
  else if j then .ok (.noise m pp a b c)
  else if pp = 0 then .ok (.first m a b c)
  else if pp = 1 then .ok (.calib m a b c)
  else if pp = 2 then
    if m then .ok (.recOnly a b c)
    else if c then .ok (.long a b)
    else if !a then .ok (.runt b)
    else if !b then .ok .zero
    else .ok .one
  else .error .unreachablePhase

/-- The actions of rule R94. Every selector has one. -/
def decodeSelector (t : BitVec 5) : Instr :=
  let h := t.getLsbD 3
  let e := t.getLsbD 2
  let r := t.getLsbD 1
  let bt := t.getLsbD 0
  if t.getLsbD 4 then .tidle h e r bt
  else if h then .thold e r bt
  else if e then .tdone r bt
  else if r then (if bt then .tone else .tzero)
  else .tend bt

/-- The opcode map of rule R97. Every command word has a command. -/
def decodeCommand (w : BitVec 12) : Instr :=
  let op := w.extractLsb' 8 4
  let arg := w.extractLsb' 0 8
  if op = 0x0 then .nop arg
  else if op = 0x1 then .txclr arg
  else if op = 0x2 then .txpush arg
  else if op = 0x3 then .txgo arg
  else if op = 0x4 then .rxack arg
  else if op = 0x5 then .errclr arg
  else if op.getLsbD 3 then .reserved8F (op.extractLsb' 0 3) arg
  else .reserved67 (op.getLsbD 0) arg

/-- The decoder: each word in its own code space. -/
def decode : Word → Except DecodeReject Instr
  | .vector v => decodeVector v
  | .selector t => .ok (decodeSelector t)
  | .command w => .ok (decodeCommand w)

/-- The word of an instruction, from the rows of rules R91, R94 and R97. -/
def encode : Instr → Word
  | .gate low => .vector (BitVec.ofBool true ++ low)
  | .hold m j pp a b c => .vector (vectorOf false m false j pp a b c)
  | .noise m pp a b c => .vector (vectorOf false m true true pp a b c)
  | .first m a b c => .vector (vectorOf false m true false 0 a b c)
  | .calib m a b c => .vector (vectorOf false m true false 1 a b c)
  | .runt b => .vector (vectorOf false false true false 2 false b false)
  | .zero => .vector (vectorOf false false true false 2 true false false)
  | .one => .vector (vectorOf false false true false 2 true true false)
  | .long a b => .vector (vectorOf false false true false 2 a b true)
  | .recOnly a b c => .vector (vectorOf false true true false 2 a b c)
  | .tidle h e r bt => .selector (selectorOf true h e r bt)
  | .thold e r bt => .selector (selectorOf false true e r bt)
  | .tzero => .selector (selectorOf false false false true false)
  | .tone => .selector (selectorOf false false false true true)
  | .tend bt => .selector (selectorOf false false false false bt)
  | .tdone r bt => .selector (selectorOf false false true r bt)
  | .nop arg => .command (commandWord 0x0 arg)
  | .txclr arg => .command (commandWord 0x1 arg)
  | .txpush arg => .command (commandWord 0x2 arg)
  | .txgo arg => .command (commandWord 0x3 arg)
  | .rxack arg => .command (commandWord 0x4 arg)
  | .errclr arg => .command (commandWord 0x5 arg)
  | .reserved67 lo arg => .command (commandWord (0b011#3 ++ BitVec.ofBool lo) arg)
  | .reserved8F lo arg => .command (commandWord (0b1#1 ++ lo) arg)

/-- The code space a row of spec/opcode_table.json belongs to. -/
inductive CodeSpace where
  | vector
  | selector
  | command
deriving DecidableEq, Repr

/-- One row of spec/opcode_table.json: its name, its code space, its `mask` and its `match`. -/
structure TableRow where
  mnemonic : String
  space : CodeSpace
  mask : Nat
  pattern : Nat
deriving DecidableEq, Repr

/-- The rows of the classifier vector (R91). -/
def classifierRows : List TableRow :=
  [⟨"GATE", .vector, 0x100, 0x100⟩, ⟨"HOLD", .vector, 0x040, 0x000⟩, ⟨"NOISE", .vector, 0x060, 0x060⟩,
   ⟨"FIRST", .vector, 0x078, 0x040⟩, ⟨"CALIB", .vector, 0x078, 0x048⟩, ⟨"RUNT", .vector, 0x0FC, 0x050⟩,
   ⟨"ZERO", .vector, 0x0FE, 0x054⟩, ⟨"ONE", .vector, 0x0FF, 0x056⟩, ⟨"LONG", .vector, 0x0F9, 0x051⟩,
   ⟨"REC", .vector, 0x0F8, 0x0D0⟩]

/-- The rows of the transmit selector (R94). -/
def selectorRows : List TableRow :=
  [⟨"TIDLE", .selector, 0x10, 0x10⟩, ⟨"THOLD", .selector, 0x18, 0x08⟩, ⟨"TZERO", .selector, 0x1F, 0x02⟩,
   ⟨"TONE", .selector, 0x1F, 0x03⟩, ⟨"TEND", .selector, 0x1E, 0x00⟩, ⟨"TDONE", .selector, 0x1C, 0x04⟩]

/-- The rows of the command word (R97). -/
def commandRows : List TableRow :=
  [⟨"NOP", .command, 0xF00, 0x000⟩, ⟨"TXCLR", .command, 0xF00, 0x100⟩, ⟨"TXPUSH", .command, 0xF00, 0x200⟩,
   ⟨"TXGO", .command, 0xF00, 0x300⟩, ⟨"RXACK", .command, 0xF00, 0x400⟩, ⟨"ERRCLR", .command, 0xF00, 0x500⟩,
   ⟨"RESERVED_6_7", .command, 0xE00, 0x600⟩, ⟨"RESERVED_8_F", .command, 0x800, 0x800⟩]

/-- spec/opcode_table.json, row by row. -/
def opcodeTable : List TableRow := classifierRows ++ selectorRows ++ commandRows

/-- The code space of a word. -/
def wordSpace : Word → CodeSpace
  | .vector _ => .vector
  | .selector _ => .selector
  | .command _ => .command

/-- The bits of a word as a number, bit 0 the least significant. -/
def wordBits : Word → Nat
  | .vector v => v.toNat
  | .selector t => t.toNat
  | .command c => c.toNat

/-- Does the word fall under the row: the same code space, and the row's fixed bits as the row has them? -/
def rowMatches (r : TableRow) (w : Word) : Bool :=
  (r.space == wordSpace w) && ((wordBits w &&& r.mask) == r.pattern)

/-- The word that `nbits` bits of value `w` of spec/opcode_table.json stand for. The table keeps three code
spaces in one list; the number of bits tells them apart, except that a 9-bit vector and a 12-bit command both
fill two whole bytes: there a value that fits in 9 bits is read as a vector (log entry 9). -/
def tableWord (nbits w : Nat) : Option Word :=
  if nbits ≤ 8 then (if w < 32 then some (.selector (BitVec.ofNat 5 w)) else none)
  else if nbits = 12 then (if w < 4096 then some (.command (BitVec.ofNat 12 w)) else none)
  else if w < 512 then some (.vector (BitVec.ofNat 9 w))
  else if nbits = 9 then none
  else if w < 4096 then some (.command (BitVec.ofNat 12 w))
  else none

/-- The instruction the decoder reads from a table word of `nbits` bits. -/
def decodeTableWord (nbits w : Nat) : Option Instr :=
  match tableWord nbits w with
  | none => none
  | some x =>
    match decode x with
    | .ok i => some i
    | .error _ => none

end Sys2Proof
end

