-- ==== Sys2Proof/Config.lean ====
section
/-!
DEFINITION. The implementation parameters of spec/00_scope.md rule R6, the fixed signature, the pins of one tick
(R9, R103), and the free values: constants with no body that stand for what the spec leaves open.
-/

namespace Sys2Proof

/-- `LEN_BYTES`: the size of the frame's length field, 1 or 2 (R6, R87). -/
inductive LenBytes where
  | one
  | two
deriving DecidableEq, Repr, Inhabited

/-- `LEN_BYTES` as the number the rules compute with. -/
def LenBytes.toNat : LenBytes → Nat
  | .one => 1
  | .two => 2

/-- `DECODE_MODE`: `CAL` (0) or `MIN` (1) (R5, R6). -/
inductive DecodeMode where
  | cal
  | min
deriving DecidableEq, Repr, Inhabited

/-- The parameters of rule R6. They are static: no step of the machine writes them (R255, R256).
`tickSecondsNum / tickSecondsDen` is `TICK_SECONDS`, which no rule reads. -/
structure Config where
  tickSecondsNum : Nat
  tickSecondsDen : Nat
  tw : Nat
  rxRejectPeriod : Nat
  rxEndPeriod : Nat
  rxStartBits : Nat
  minRxBytes : Nat
  lenBytes : LenBytes
  decodeMode : DecodeMode
  cwCap : Nat
  rxbufCap : Nat
  txbufCap : Nat
  key : Vector Byte 16
  txUnitPeriod : Nat
  txStartPeriod : Nat
  txStartCount : Nat
  txEndPeriod : Nat
deriving DecidableEq, Repr

/-- `SIG[0..3]`, the frame signature (R56, R84). -/
def sig : List Byte := [0x63, 0xF9, 0x5C, 0x1B]

/-- The spec's test configuration `T` (95_test_vectors.md). DESIGN CHOICE (log entry 1): the spec gives the
parameters no values; the machine after reset is shown with these, and no statement rests on them. -/
def Config.testT : Config where
  tickSecondsNum := 1
  tickSecondsDen := 1
  tw := 16
  rxRejectPeriod := 2
  rxEndPeriod := 100
  rxStartBits := 0
  minRxBytes := 4
  lenBytes := .one
  decodeMode := .cal
  cwCap := 4096
  rxbufCap := 262
  txbufCap := 255
  key := #v[0xC5, 0x07, 0x22, 0x33, 0x44, 0x55, 0x66, 0x77, 0x88, 0x99, 0xAA, 0xBB, 0xCC, 0xDD, 0xEE, 0xFF]
  txUnitPeriod := 10
  txStartPeriod := 10
  txStartCount := 1
  txEndPeriod := 150

/-- What the platform drives onto `rx_in` in a tick: a level, or the wire from `tx_out` of rule R103's `WIRE`
(the value `tx_out` had after the previous tick). -/
inductive RxDrive where
  | level (l : Level)
  | wire
deriving DecidableEq, Repr, Inhabited

/-- The input pins of one tick (R9): `rst`, `rx_in`, `cmd_valid`, `cmd`, `rd_addr`. -/
structure TickInput where
  rst : Bool
  rxIn : RxDrive
  cmdValid : Bool
  cmd : BitVec 12
  rdAddr : BitVec 16
deriving DecidableEq, Repr, Inhabited

/-- FREE VALUE (log entry 3): the pins in the tick of this number, when the platform's list of inputs has run
out. Nothing constrains what a platform drives. -/
opaque Config.freeInput (tick : Nat) : TickInput

/-- Which byte buffer of rules R61 to R63. -/
inductive ByteBuffer where
  | rxbuf
  | rxpay
  | txbuf
deriving DecidableEq, Repr

/-- FREE VALUE (log entry 5): an entry of a byte buffer at or beyond the buffer's count, which has no defined
value (R10, R35, R43, R54). No rule reads one. -/
opaque Config.freeByte (b : ByteBuffer) (tick index : Nat) : Byte

/-- FREE VALUE (log entry 5): an entry of the capture window at or beyond `CWCNT` (R10, R35). No rule reads one. -/
opaque Config.freeEvent (tick index : Nat) : Event

end Sys2Proof
end

