-- ==== Sys2Proof/Machine/State.lean ====
section
/-!
DEFINITION. The architectural state of spec/10_state.md and spec/20_memory.md, as plain data, its reset values
(R59), the named updates of its groups, and the reasons a step can stop.
-/

namespace Sys2Proof.Machine

/-- `RXPHASE`, 2 bits (R22): `IDLE = 0`, `START = 1`, `DATA = 2`. Value 3 is never produced. -/
inductive RxPhase where
  | idle
  | start
  | data
deriving DecidableEq, Repr

/-- The two bits of `RXPHASE` (R22). -/
def RxPhase.code : RxPhase → BitVec 2
  | .idle => 0
  | .start => 1
  | .data => 2

/-- `TXPHASE`, 2 bits (R50): `T_IDLE = 0`, `T_START = 1`, `T_DATA = 2`, `T_END = 3`. -/
inductive TxPhase where
  | idle
  | start
  | data
  | end_
deriving DecidableEq, Repr

/-- The two bits of `TXPHASE` (R50). -/
def TxPhase.code : TxPhase → BitVec 2
  | .idle => 0
  | .start => 1
  | .data => 2
  | .end_ => 3

/-- `RXSTAT` (R40, R220): the outcome of the last finalized message. Code 7 is never produced. -/
inductive RxStatus where
  | none
  | ok
  | badTiming
  | tooShort
  | signatureMismatch
  | lengthOverrun
  | checksumMismatch
deriving DecidableEq, Repr

/-- The three bits of `RXSTAT` (R220). -/
def RxStatus.code : RxStatus → BitVec 3
  | .none => 0
  | .ok => 1
  | .badTiming => 2
  | .tooShort => 3
  | .signatureMismatch => 4
  | .lengthOverrun => 5
  | .checksumMismatch => 6

/-- The receive path's working state (R22 to R34): `RXPHASE`, `LEVEL`, `ELAPSED`, `UNIT`, `BAD`, `CWOVF`,
`SHREG`, `BITCNT`, `RXCNT`, `SKIP`, `CWCNT`. A register whose width is a parameter is a `Nat`: nothing wraps
(R11), and Safety.lean's `WidthsOk` says that it fits. -/
structure RxPath where
  phase : RxPhase
  level : Level
  elapsed : Nat
  unit : Nat
  bad : Bool
  cwovf : Bool
  shreg : BitVec 8
  bitcnt : BitVec 3
  rxcnt : Nat
  skip : Nat
  cwcnt : Nat
deriving DecidableEq, Repr

/-- The result and status registers (R40 to R46): `RXSTAT`, `RXCAUSE`, `RXLEN`, `RXNBYTES`, `MINLOW`, `MINHIGH`,
`RXDONE`, `RXOVR`. -/
structure RxResult where
  stat : RxStatus
  cause : BitVec 5
  len : Nat
  nbytes : Nat
  minLow : Nat
  minHigh : Nat
  done : Bool
  ovr : Bool
deriving DecidableEq, Repr

/-- The transmit path (R50 to R54): `TXPHASE`, `TXLEVEL`, `TXHOLD`, `TXIDX`, `TXLEN`. -/
structure TxPath where
  phase : TxPhase
  level : Level
  hold : Nat
  idx : Nat
  len : Nat
deriving DecidableEq, Repr

/-- The four buffers that can be written (R60 to R63), each indexed from 0 on its own (R65): `CW`, `RXBUF`,
`RXPAY`, `TXBUF`. Each is a list of (index, entry) pairs in one canonical form (Machine/Buffers.lean). -/
structure Memory where
  cw : List (Nat × Event)
  rxbuf : List Host.Cell
  rxpay : List Host.Cell
  txbuf : List Host.Cell
deriving DecidableEq, Repr

/-- Which of the tick's steps comes next: `TXSTEP`, `HOSTCMD`, `RXSTEP` (R8). -/
inductive Slot where
  | tx
  | host
  | rx
deriving DecidableEq, Repr

/-- The MODEL'S OWN fields (log entries 3 and 4): where in the tick the machine stands, what the platform drives
in this and the following ticks, the number of the tick (which the free values are applied to), and the
value `tx_out` had after the previous tick (R103 `WIRE`). -/
structure Env where
  slot : Slot
  inputs : List TickInput
  ticks : Nat
  wire : Level
deriving DecidableEq, Repr

/-- The whole state: the configuration (which no step writes), the receive path, the result registers, the
transmit path, `CMDERR` (R55), the buffers, and the model's own fields. -/
structure State where
  cfg : Config
  rx : RxPath
  res : RxResult
  tx : TxPath
  cmdErr : Bool
  mem : Memory
  env : Env
deriving DecidableEq, Repr

/-- Replace the receive path's working state. -/
def State.setRx (s : State) (r : RxPath) : State := { s with rx := r }

/-- Replace the result registers. -/
def State.setRes (s : State) (r : RxResult) : State := { s with res := r }

/-- Replace the transmit path's state. -/
def State.setTx (s : State) (t : TxPath) : State := { s with tx := t }

/-- Replace `CMDERR`. -/
def State.setCmdErr (s : State) (b : Bool) : State := { s with cmdErr := b }

/-- Replace the buffers. -/
def State.setMem (s : State) (m : Memory) : State := { s with mem := m }

/-- Replace the model's own fields. -/
def State.setEnv (s : State) (e : Env) : State := { s with env := e }

/-- The receive path after reset (R59): idle, `LEVEL = 0`, `SKIP = RX_START_BITS`, everything else 0. -/
def RxPath.reset (c : Config) : RxPath where
  phase := .idle
  level := false
  elapsed := 0
  unit := 0
  bad := false
  cwovf := false
  shreg := 0
  bitcnt := 0
  rxcnt := 0
  skip := c.rxStartBits
  cwcnt := 0

/-- The result registers after reset (R59): `NONE`, 0, and the minima at `RX_END_PERIOD`. -/
def RxResult.reset (c : Config) : RxResult where
  stat := .none
  cause := 0
  len := 0
  nbytes := 0
  minLow := c.rxEndPeriod
  minHigh := c.rxEndPeriod
  done := false
  ovr := false

/-- The transmit path after reset (R59): idle, `tx_out` off, an empty payload. -/
def TxPath.reset : TxPath where
  phase := .idle
  level := false
  hold := 0
  idx := 0
  len := 0

/-- The buffers after reset: nothing listed. Their contents are unspecified and unreachable, every count being 0
(R35, R43, R54, R250; log entry 5). -/
def Memory.empty : Memory where
  cw := []
  rxbuf := []
  rxpay := []
  txbuf := []

/-- The model's own fields after reset (log entries 3 and 4): the first step of a tick, nothing driven by a list. -/
def Env.reset : Env where
  slot := .tx
  inputs := []
  ticks := 0
  wire := false

/-- The state after a tick with `rst = 1`, for any configuration (R59, R250). -/
def State.resetWith (c : Config) : State where
  cfg := c
  rx := RxPath.reset c
  res := RxResult.reset c
  tx := TxPath.reset
  cmdErr := false
  mem := Memory.empty
  env := Env.reset

/-- The machine right after reset, with the spec's test configuration `T` (log entry 1). -/
def State.reset : State := State.resetWith Config.testT

/-- Why a step stops with a fault. -/
inductive Fault where
  /-- Raised by the step when the word it formed is no reachable word of the decode table: `a model that decodes
  by table treats an unreachable vector as a fault of the model, not of the block` (R92, U42). Safe: with a
  configuration that meets rule R6 no state forms such a word. -/
  | unreachableVector
deriving DecidableEq, Repr

/-- Why a step refuses. -/
inductive Refusal where
  /-- Raised by a dispatch arm of an instruction that has no meaning yet. No arm raises it. Safe. -/
  | notModelled (mnemonic : String)
  /-- Raised by the step when the configuration breaks a constraint of rule R6: it `has no meaning: a model
  refuses it and states nothing about it` (R7, U31). Safe. -/
  | badConfig
deriving DecidableEq, Repr

end Sys2Proof.Machine
end

