-- ==== Sys2Proof/Machine/Buffers.lean ====
section
/-!
DEFINITION. The buffers as lists of (index, entry) pairs in one canonical form: indices strictly rising, and no
entry equal to what an unlisted index reads as. spec/20_memory.md rules R60 to R65, R69.
-/

namespace Sys2Proof.Machine

/-- What an unlisted index of a byte buffer reads as. DESIGN CHOICE (log entry 5): the spec gives no contents. -/
def unlistedByte : Byte := 0x00

/-- What an unlisted index of the capture window reads as. DESIGN CHOICE (log entry 5). -/
def unlistedEvent : Event := ⟨0, false, 0⟩

/-- `X[i]` of rule R10: the entry listed at an index, else what an unlisted index reads as. -/
def bufRead {α : Type} (d : α) (l : List (Nat × α)) (i : Nat) : α :=
  match l with
  | [] => d
  | (k, v) :: t => if k = i then v else bufRead d t i

/-- `X[i] <- v` of rule R10, keeping the canonical form. -/
def bufWrite {α : Type} [DecidableEq α] (d : α) (l : List (Nat × α)) (i : Nat) (v : α) : List (Nat × α) :=
  match l with
  | [] => if v = d then [] else [(i, v)]
  | (k, w) :: t =>
    if i < k then (if v = d then (k, w) :: t else (i, v) :: (k, w) :: t)
    else if i = k then (if v = d then t else (i, v) :: t)
    else (k, w) :: bufWrite d t i v

/-- The canonical form: indices strictly rising, no entry equal to what an unlisted index reads as. -/
abbrev BufWf {α : Type} (d : α) (l : List (Nat × α)) : Prop :=
  l.Pairwise (fun p q => p.1 < q.1) ∧ ∀ p ∈ l, p.2 ≠ d

/-- Every buffer is in canonical form. -/
abbrev Memory.wf (m : Memory) : Prop :=
  BufWf unlistedEvent m.cw ∧ BufWf unlistedByte m.rxbuf ∧ BufWf unlistedByte m.rxpay ∧ BufWf unlistedByte m.txbuf

/-- `CW[k]` as stored (R60). -/
def Memory.readCw (m : Memory) (k : Nat) : Event := bufRead unlistedEvent m.cw k

/-- `RXBUF[i]` as stored (R61). -/
def Memory.readRxbuf (m : Memory) (i : Nat) : Byte := bufRead unlistedByte m.rxbuf i

/-- `RXPAY[i]` as stored (R62). -/
def Memory.readRxpay (m : Memory) (i : Nat) : Byte := bufRead unlistedByte m.rxpay i

/-- `TXBUF[i]` as stored (R63). -/
def Memory.readTxbuf (m : Memory) (i : Nat) : Byte := bufRead unlistedByte m.txbuf i

/-- `CW[k] <- e` (R60, R113). -/
def Memory.writeCw (m : Memory) (k : Nat) (e : Event) : Memory := { m with cw := bufWrite unlistedEvent m.cw k e }

/-- `RXBUF[i] <- b` (R61, R140). -/
def Memory.writeRxbuf (m : Memory) (i : Nat) (b : Byte) : Memory :=
  { m with rxbuf := bufWrite unlistedByte m.rxbuf i b }

/-- `RXPAY[i] <- b` (R62, R160). -/
def Memory.writeRxpay (m : Memory) (i : Nat) (b : Byte) : Memory :=
  { m with rxpay := bufWrite unlistedByte m.rxpay i b }

/-- `TXBUF[i] <- b` (R63, R203). -/
def Memory.writeTxbuf (m : Memory) (i : Nat) (b : Byte) : Memory :=
  { m with txbuf := bufWrite unlistedByte m.txbuf i b }

end Sys2Proof.Machine
end

