-- ==== Sys2Proof/Machine/Operands.lean ====
section
/-!
DEFINITION. What the operations compute with: the constraints on the configuration (R6), the pins of the tick
(R9), the saturating interval counter (R11, R24), the entries of the buffers below their counts (R10), the cipher
(R170), and the frame being sent (R180, R181).
-/

namespace Sys2Proof.Machine

/-- `SATMAX = 2^TW - 1` (R11). -/
def satMax (c : Config) : Nat := 2 ^ c.tw - 1

/-- `sat_inc(v)` (R11). -/
def satInc (c : Config) (v : Nat) : Nat := if v < satMax c then v + 1 else satMax c

/-- `S`, the start pulse in ticks: `TX_START_PERIOD * TX_START_COUNT` (R80, R183). -/
def startPulse (c : Config) : Nat := c.txStartPeriod * c.txStartCount

/-- `KEY[i mod 16]` (R170). -/
def keyByte (c : Config) (i : Nat) : Byte := c.key[i % 16]'(Nat.mod_lt i (by decide))

/-- The constraints of rule R6, row by row. -/
def configOk (c : Config) : Bool :=
  (decide (0 < c.tickSecondsNum) && decide (0 < c.tickSecondsDen))
  && decide (c.rxEndPeriod + 2 ≤ 2 ^ c.tw)
  && decide (c.rxRejectPeriod ≤ c.rxEndPeriod)
  && decide (1 ≤ c.rxEndPeriod)
  && decide (1 ≤ c.cwCap)
  && decide (1 ≤ c.rxbufCap)
  && decide (c.txbufCap < 2 ^ (8 * c.lenBytes.toNat))
  && (keyByte c 0 == 0xC5 && keyByte c 1 == 0x07)
  && (decide (1 ≤ c.txUnitPeriod) && decide (2 * c.txUnitPeriod < 2 ^ c.tw))
  && (decide (1 ≤ startPulse c) && decide (startPulse c < 2 ^ c.tw))
  && (decide (1 ≤ c.txEndPeriod) && decide (c.txEndPeriod < 2 ^ c.tw))

/-- The pins in the present tick: the first of the platform's list, or a free value when it has run out (R9;
log entry 3). -/
def State.input (s : State) : TickInput :=
  match s.env.inputs with
  | [] => Config.freeInput s.env.ticks
  | t :: _ => t

/-- The sampled bit `rx_in` (R9, R103). -/
def State.rxIn (s : State) : Level :=
  match s.input.rxIn with
  | .level l => l
  | .wire => s.env.wire

/-- `diff = sat_inc(ELAPSED)`: ticks since the last accepted transition (R24, R90, R110). -/
def State.diff (s : State) : Nat := satInc s.cfg s.rx.elapsed

/-- `CW[k]` for `k < CWCNT`; beyond, no value is defined (R10, R60; log entry 5). -/
def State.cwEvent (s : State) (k : Nat) : Event :=
  if k < s.rx.cwcnt then s.mem.readCw k else Config.freeEvent s.env.ticks k

/-- `RXBUF[i]` for `i < RXCNT`; beyond, no value is defined (R10, R61; log entry 5). -/
def State.rxByte (s : State) (i : Nat) : Byte :=
  if i < s.rx.rxcnt then s.mem.readRxbuf i else Config.freeByte .rxbuf s.env.ticks i

/-- `RXPAY[i]` for `i < RXLEN`; beyond, no value is defined (R43, R62; log entry 5). -/
def State.payByte (s : State) (i : Nat) : Byte :=
  if i < s.res.len then s.mem.readRxpay i else Config.freeByte .rxpay s.env.ticks i

/-- `TXBUF[i]` for `i < TXLEN`; beyond, no value is defined (R54, R63; log entry 5). -/
def State.txByte (s : State) (i : Nat) : Byte :=
  if i < s.tx.len then s.mem.readTxbuf i else Config.freeByte .txbuf s.env.ticks i

/-- `CIPH(b, i) = b ^ KEY[i mod 16]` (R170). -/
def ciph (c : Config) (b : Byte) (i : Nat) : Byte := b ^^^ keyByte c i

/-- The plain payload `TXBUF[0 .. TXLEN-1]` (R54). -/
def State.plain (s : State) : List Byte := (List.range s.tx.len).map s.txByte

/-- A payload byte for byte through the cipher, the offset counted from 0 (R170, R171). -/
def ciphAll (c : Config) (bs : List Byte) : List Byte := bs.mapIdx fun i b => ciph c b i

/-- The length field of a payload of `n` bytes: `[n]`, or high byte first (R84, R180). -/
def lenField (l : LenBytes) (n : Nat) : List Byte :=
  match l with
  | .one => [BitVec.ofNat 8 n]
  | .two => [BitVec.ofNat 8 (n / 256), BitVec.ofNat 8 (n % 256)]

/-- The frame of a plain payload: signature, length, encrypted payload, checksum over the encrypted bytes
(R84, R86, R180). -/
def frameOf (c : Config) (payload : List Byte) : List Byte :=
  sig ++ lenField c.lenBytes payload.length ++ ciphAll c payload ++ [xorFold (ciphAll c payload)]

/-- `FRAME()`: the byte sequence the transmitter walks, computed anew whenever read (R74, R180). -/
def State.frame (s : State) : List Byte := frameOf s.cfg s.plain

/-- `FLEN = 4 + LEN_BYTES + TXLEN + 1` (R181). -/
def State.flen (s : State) : Nat := 4 + s.cfg.lenBytes.toNat + s.tx.len + 1

/-- Frame bit `j`: bit `7 - (j mod 8)` of `FRAME()[floor(j / 8)]` (R181). -/
def State.frameBit (s : State) (j : Nat) : Bool := (s.frame.getD (j / 8) 0).getLsbD (7 - j % 8)

end Sys2Proof.Machine
end

