-- ==== Sys2Proof/Machine/Flags.lean ====
section
/-!
DEFINITION. The comparator bits: the count of units (R112), the bits of the classifier vector (R90) and of the
transmit selector (R94), and the cause bits of `BadTiming` (R41, R152, R154).
-/

namespace Sys2Proof.Machine

/-- `CNT(d, u)`: the units in an interval, ties up, clipped at 3, by comparisons alone (R112). -/
def cnt (d u : Nat) : Nat :=
  if 2 * d < u then 0 else if 2 * d < 3 * u then 1 else if 2 * d < 5 * u then 2 else 3

/-- `G`: a message is open and `diff > RX_END_PERIOD` (R90, R111). -/
def flagG (s : State) : Bool := (s.rx.phase != .idle) && decide (s.cfg.rxEndPeriod < s.diff)

/-- `M`: `DECODE_MODE`, 0 `CAL`, 1 `MIN` (R90). -/
def flagM (s : State) : Bool := s.cfg.decodeMode == .min

/-- `X`: `rx_in != LEVEL` (R90). -/
def flagX (s : State) : Bool := s.rxIn != s.rx.level

/-- `J`: `diff < RX_REJECT_PERIOD` (R90). -/
def flagJ (s : State) : Bool := decide (s.diff < s.cfg.rxRejectPeriod)

/-- `P`: `00` if `G = 1`, else `RXPHASE` (R90). -/
def flagP (s : State) : BitVec 2 := if flagG s then 0 else s.rx.phase.code

/-- `A`: `2*diff >= UNIT` (R90). -/
def flagA (s : State) : Bool := decide (s.rx.unit ≤ 2 * s.diff)

/-- `B`: `2*diff >= 3*UNIT` (R90). -/
def flagB (s : State) : Bool := decide (3 * s.rx.unit ≤ 2 * s.diff)

/-- `C`: `2*diff >= 5*UNIT` (R90). -/
def flagC (s : State) : Bool := decide (5 * s.rx.unit ≤ 2 * s.diff)

/-- The classifier vector `V` of the present state and pins (R90). -/
def rxVector (s : State) : BitVec 9 :=
  vectorOf (flagG s) (flagM s) (flagX s) (flagJ s) (flagP s) (flagA s) (flagB s) (flagC s)

/-- `I`: `TXPHASE = T_IDLE` (R94). -/
def flagI (s : State) : Bool := s.tx.phase == .idle

/-- `H`: `TXHOLD > 1` (R94). -/
def flagH (s : State) : Bool := decide (1 < s.tx.hold)

/-- `E`: `TXPHASE = T_END` (R94). -/
def flagE (s : State) : Bool := s.tx.phase == .end_

/-- `R`: a frame bit remains, `TXIDX < 8*FLEN` (R94). -/
def flagR (s : State) : Bool := decide (s.tx.idx < 8 * s.flen)

/-- `Bt`: frame bit `TXIDX`, taken as 0 when `R = 0` (R94). -/
def flagBt (s : State) : Bool := flagR s && s.frameBit s.tx.idx

/-- The transmit selector `T` of the present state (R94). -/
def txSelector (s : State) : BitVec 5 := selectorOf (flagI s) (flagH s) (flagE s) (flagR s) (flagBt s)

/-- `RXCAUSE`: bit 0 `NOMIN`, 1 `SUBREJ`, 2 `BADSYM`, 3 `WINOVF`, 4 `ALLZERO` (R41). -/
def causeOf (nomin subrej badsym winovf allzero : Bool) : BitVec 5 :=
  BitVec.ofBool allzero ++ BitVec.ofBool winovf ++ BitVec.ofBool badsym ++ BitVec.ofBool subrej ++ BitVec.ofBool nomin

/-- `NOMIN`: a minimum is not shorter than `RX_END_PERIOD` (R152). -/
def causeNoMin (c : Config) (lo hi : Nat) : Bool := decide (c.rxEndPeriod ≤ lo) || decide (c.rxEndPeriod ≤ hi)

/-- `SUBREJ`: a minimum is below `RX_REJECT_PERIOD` (R152). -/
def causeSubRej (c : Config) (lo hi : Nat) : Bool := decide (lo < c.rxRejectPeriod) || decide (hi < c.rxRejectPeriod)

/-- `TIMING_CAUSE(lo, hi)`: bits 0, 1 and 3, before the window decode (R152). -/
def timingCause (s : State) (lo hi : Nat) : BitVec 5 :=
  causeOf (causeNoMin s.cfg lo hi) (causeSubRej s.cfg lo hi) false s.rx.cwovf false

/-- `ALLZERO()`: at least one byte was assembled and every assembled byte is `0x00` (R154). -/
def allZero (s : State) : Bool := decide (1 ≤ s.rx.rxcnt) && (List.range s.rx.rxcnt).all fun i => s.rxByte i == 0

/-- The whole cause: `TIMING_CAUSE`'s bits, `BADSYM` as `BAD` is after the window decode, and `ALLZERO`, tested
only if the others are clear (R150, R152). -/
def fullCause (s : State) (timing : BitVec 5) : BitVec 5 :=
  let c := if s.rx.bad then timing ||| 0b00100 else timing
  if c = 0 then (if allZero s then 0b10000 else 0) else c

end Sys2Proof.Machine
end

