-- ==== Sys2Proof/Machine/Ops.lean ====
section
/-!
DEFINITION. The shared operations: recording an event (R113), the bit assembler (R140), one symbol (R122), the
checks of a finalization (R150 to R160), posting a result, which is how an error kind is raised (R161, R226), the
clearing after it (R162), and the acknowledgement (R205, R232).
-/

namespace Sys2Proof.Machine

/-- What every accepted transition does: `LEVEL <- rx_in ; ELAPSED <- 0` (R110). -/
def accept (s : State) : State := s.setRx { s.rx with level := s.rxIn, elapsed := 0 }

/-- What `HOLD` and `NOISE` do: `ELAPSED <- diff` (R114, R115). -/
def passTime (s : State) : State := s.setRx { s.rx with elapsed := s.diff }

/-- `RECORD(l, d)`: append an event to the capture window, or set `CWOVF` (R113). -/
def record (l : Level) (d : Nat) (s : State) : State :=
  if s.rx.cwcnt < s.cfg.cwCap then
    (s.setMem (s.mem.writeCw s.rx.cwcnt ⟨s.rx.cwcnt, l, d⟩)).setRx { s.rx with cwcnt := s.rx.cwcnt + 1 }
  else s.setRx { s.rx with cwovf := true }

/-- `SHREG` with a new bit at bit 0: `{SHREG[6:0], b}` (R140). -/
def shiftIn (r : BitVec 8) (b : Bool) : BitVec 8 := r.extractLsb' 0 7 ++ BitVec.ofBool b

/-- `PUSHBIT(b)` (R140). -/
def pushBit (b : Bool) (s : State) : State :=
  if 0 < s.rx.skip then s.setRx { s.rx with skip := s.rx.skip - 1 }
  else
    let r := shiftIn s.rx.shreg b
    if s.rx.bitcnt = 7 then
      if s.rx.rxcnt < s.cfg.rxbufCap then
        (s.setMem (s.mem.writeRxbuf s.rx.rxcnt r)).setRx
          { s.rx with shreg := r, bitcnt := 0, rxcnt := s.rx.rxcnt + 1 }
      else s.setRx { s.rx with shreg := r, bitcnt := 0 }
    else s.setRx { s.rx with shreg := r, bitcnt := s.rx.bitcnt + 1 }

/-- An invalid symbol: `BAD <- 1` (R118, R122). -/
def markBad (s : State) : State := s.setRx { s.rx with bad := true }

/-- `SYMBOL(d, u)` (R122). -/
def symbol (d u : Nat) (s : State) : State :=
  if cnt d u = 1 then pushBit false s
  else if cnt d u = 2 then pushBit true s
  else markBad s

/-- Event `k` of a window of `n` is eligible for the minima: `2 <= k <= n - 3` (R151). -/
def eligible (n k : Nat) : Bool := decide (2 ≤ k ∧ k + 3 ≤ n)

/-- `MINIMA()` for one level: the shortest eligible interval of that level, `RX_END_PERIOD` if none is shorter
(R151). -/
def windowMin (s : State) (l : Level) : Nat :=
  (List.range s.rx.cwcnt).foldl
    (fun m k => if eligible s.rx.cwcnt k && ((s.cwEvent k).level == l) then min m (s.cwEvent k).dur else m)
    s.cfg.rxEndPeriod

/-- `WINDECODE(lo, hi)`: each event of the window against the minimum of its own level (R153). -/
def winDecode (lo hi : Nat) (s : State) : State :=
  (List.range s.rx.cwcnt).foldl
    (fun t k => symbol (s.cwEvent k).dur (if (s.cwEvent k).level then hi else lo) t) s

/-- The state the framer sees: in `MIN` mode with the timing causes clear, the window is decoded first (R150). -/
def assembled (lo hi : Nat) (timing : BitVec 5) (s : State) : State :=
  if s.cfg.decodeMode = .min ∧ timing = 0 then winDecode lo hi s else s

/-- `SIGOK()` (R156). -/
def sigOk (s : State) : Bool :=
  decide (4 ≤ s.rx.rxcnt) && (List.range 4).all fun i => s.rxByte i == sig.getD i 0

/-- `4 + LEN_BYTES`: where the payload begins in a frame (R84). -/
def payloadAt (c : Config) : Nat := 4 + c.lenBytes.toNat

/-- `LENFIELD()`: the length the frame announces (R85, R157). -/
def rxLenField (s : State) : Nat :=
  match s.cfg.lenBytes with
  | .one => (s.rxByte 4).toNat
  | .two => 256 * (s.rxByte 4).toNat + (s.rxByte 5).toNat

/-- The `n` on-wire payload bytes, as received (R86, R159). -/
def wirePayload (s : State) (n : Nat) : List Byte := (List.range n).map fun i => s.rxByte (payloadAt s.cfg + i)

/-- The six framer steps after the cause bits, in the order of rules R150 and R229. -/
def verdict (s : State) (cause : BitVec 5) : RxStatus :=
  if cause ≠ 0 then .badTiming
  else if s.rx.rxcnt < s.cfg.minRxBytes then .tooShort
  else if sigOk s = false then .signatureMismatch
  else if s.rx.rxcnt < payloadAt s.cfg then .lengthOverrun
  else if s.rx.rxcnt - payloadAt s.cfg < rxLenField s + 1 then .lengthOverrun
  else if xorFold (wirePayload s (rxLenField s)) ≠ s.rxByte (payloadAt s.cfg + rxLenField s) then .checksumMismatch
  else .ok

/-- `DELIVER(n)`: decrypt the payload into `RXPAY` and set `RXLEN` (R160). -/
def deliver (n : Nat) (s : State) : State :=
  let pay := (List.range n).foldl
    (fun m i => Memory.writeRxpay m i (ciph s.cfg (s.rxByte (payloadAt s.cfg + i)) i)) s.mem
  (s.setMem pay).setRes { s.res with len := n }

/-- `POST(status, cause, lo, hi)`: what is recorded when a message ends, whatever its kind (R161, R226). -/
def post (st : RxStatus) (cause : BitVec 5) (lo hi : Nat) (s : State) : State :=
  s.setRes
    { stat := st
      cause := if st = .badTiming then cause else 0
      len := if st = .ok then s.res.len else 0
      nbytes := s.rx.rxcnt
      minLow := lo
      minHigh := hi
      done := true
      ovr := s.res.ovr || s.res.done }

/-- `CLEAR()`: empty the per-message state (R162). -/
def clear (s : State) : State :=
  s.setRx
    { s.rx with
      cwcnt := 0, rxcnt := 0, shreg := 0, bitcnt := 0, skip := s.cfg.rxStartBits, bad := false, cwovf := false }

/-- How a message ends, with the framer's view of it and its cause bits: the kind is found, an `OK` payload is
delivered, the result is posted and the per-message state cleared (R150, R226). -/
def conclude (lo hi : Nat) (cause : BitVec 5) (s : State) : State :=
  let st := verdict s cause
  clear (post st cause lo hi (if st = .ok then deliver (rxLenField s) s else s))

/-- `FINALIZE()` (R150). -/
def finalize (s : State) : State :=
  let lo := windowMin s false
  let hi := windowMin s true
  let timing := timingCause s lo hi
  let t := assembled lo hi timing s
  conclude lo hi (fullCause t timing) t

/-- The acknowledgement of a result: `RXDONE <- 0 ; RXOVR <- 0` (R205, R232). -/
def acknowledge (s : State) : State := s.setRes { s.res with done := false, ovr := false }

/-- A refused command, and a reserved one: `CMDERR <- 1` (R200, R207). -/
def refuseCmd (s : State) : State := s.setCmdErr true

/-- The next frame bit on the pin: toggle, hold, advance `TXIDX` (R187, R188). -/
def sendBit (hold : Nat) (s : State) : State :=
  s.setTx { s.tx with level := !s.tx.level, hold := hold, idx := s.tx.idx + 1, phase := .data }

/-- The start pulse (R183). -/
def startTx (s : State) : State :=
  s.setTx { s.tx with level := true, hold := startPulse s.cfg, idx := 0, phase := .start }

end Sys2Proof.Machine
end

