-- ==== Sys2Proof/Machine/Classifier.lean ====
section
/-!
DEFINITION. The meanings of the interval classes of `RXSTEP`, spec/40_pulse_timer.md rules R111 to R121.
-/

namespace Sys2Proof.Machine

/-- `GATE` (R111): `FINALIZE() ; RXPHASE <- IDLE`. -/
def execGate (s : State) : Host.Outcome State Fault Refusal :=
  let t := finalize s
  .next (t.setRx { t.rx with phase := .idle })

/-- `HOLD` (R114): `ELAPSED <- diff`. -/
def execHold (s : State) : Host.Outcome State Fault Refusal := .next (passTime s)

/-- `NOISE` (R115): `ELAPSED <- diff`, exactly as `HOLD`. -/
def execNoise (s : State) : Host.Outcome State Fault Refusal := .next (passTime s)

/-- `FIRST` (R116): `LEVEL <- rx_in ; ELAPSED <- 0 ; UNIT <- 0 ; RXPHASE <- START`. -/
def execFirst (s : State) : Host.Outcome State Fault Refusal :=
  let t := accept s
  .next (t.setRx { t.rx with unit := 0, phase := .start })

/-- `CALIB` (R117): `RECORD(LEVEL, diff) ; LEVEL <- rx_in ; ELAPSED <- 0 ; UNIT <- floor(9*diff/10) ;
RXPHASE <- DATA`. -/
def execCalib (s : State) : Host.Outcome State Fault Refusal :=
  let t := accept (record s.rx.level s.diff s)
  .next (t.setRx { t.rx with unit := 9 * s.diff / 10, phase := .data })

/-- `RUNT` (R118): record and accept, `BAD <- 1`. -/
def execRunt (s : State) : Host.Outcome State Fault Refusal :=
  .next (markBad (accept (record s.rx.level s.diff s)))

/-- `ZERO` (R119): record and accept, `PUSHBIT(0)`. -/
def execZero (s : State) : Host.Outcome State Fault Refusal :=
  .next (pushBit false (accept (record s.rx.level s.diff s)))

/-- `ONE` (R120): record and accept, `PUSHBIT(1)`. -/
def execOne (s : State) : Host.Outcome State Fault Refusal :=
  .next (pushBit true (accept (record s.rx.level s.diff s)))

/-- `LONG` (R118): record and accept, `BAD <- 1`. -/
def execLong (s : State) : Host.Outcome State Fault Refusal :=
  .next (markBad (accept (record s.rx.level s.diff s)))

/-- `REC` (R121): record and accept, no bit. -/
def execRec (s : State) : Host.Outcome State Fault Refusal := .next (accept (record s.rx.level s.diff s))

end Sys2Proof.Machine
end

