-- ==== Sys2Proof/Machine/Command.lean ====
section
/-!
DEFINITION. The meanings of the host commands, spec/45_host_commands.md rules R200 to R207. A command whose
condition fails is refused BY THE BLOCK: `CMDERR <- 1` and nothing else, which is a next state (R200).
-/

namespace Sys2Proof.Machine

/-- `NOP` (R201): no effect. -/
def execNop (s : State) : Host.Outcome State Fault Refusal := .next s

/-- `TXCLR` (R202): while idle, `TXLEN <- 0`. -/
def execTxclr (s : State) : Host.Outcome State Fault Refusal :=
  if s.tx.phase = .idle then .next (s.setTx { s.tx with len := 0 }) else .next (refuseCmd s)

/-- `TXPUSH` (R203): while idle and not full, `TXBUF[TXLEN] <- arg ; TXLEN <- TXLEN + 1`. -/
def execTxpush (arg : Byte) (s : State) : Host.Outcome State Fault Refusal :=
  if s.tx.phase = .idle ∧ s.tx.len < s.cfg.txbufCap then
    .next ((s.setMem (s.mem.writeTxbuf s.tx.len arg)).setTx { s.tx with len := s.tx.len + 1 })
  else .next (refuseCmd s)

/-- `TXGO` (R204): while idle, the start pulse of rule R183. -/
def execTxgo (s : State) : Host.Outcome State Fault Refusal :=
  if s.tx.phase = .idle then .next (startTx s) else .next (refuseCmd s)

/-- `RXACK` (R205): `RXDONE <- 0 ; RXOVR <- 0`. -/
def execRxack (s : State) : Host.Outcome State Fault Refusal := .next (acknowledge s)

/-- `ERRCLR` (R206): `CMDERR <- 0`. -/
def execErrclr (s : State) : Host.Outcome State Fault Refusal := .next (s.setCmdErr false)

/-- Reserved op `0x6`, `0x7` (R207): `CMDERR <- 1`. -/
def execReserved67 (s : State) : Host.Outcome State Fault Refusal := .next (refuseCmd s)

/-- Reserved op `0x8` to `0xF` (R207): `CMDERR <- 1`. -/
def execReserved8F (s : State) : Host.Outcome State Fault Refusal := .next (refuseCmd s)

end Sys2Proof.Machine
end

