-- ==== Sys2Proof/Machine/Transmit.lean ====
section
/-!
DEFINITION. The meanings of the actions of `TXSTEP`, spec/44_tx_encoder.md rules R185 to R190.
-/

namespace Sys2Proof.Machine

/-- `TIDLE` (R185): no state changes. -/
def execTidle (s : State) : Host.Outcome State Fault Refusal := .next s

/-- `THOLD` (R186): `TXHOLD <- TXHOLD - 1`. -/
def execThold (s : State) : Host.Outcome State Fault Refusal :=
  .next (s.setTx { s.tx with hold := s.tx.hold - 1 })

/-- `TZERO` (R187): toggle, hold one unit. -/
def execTzero (s : State) : Host.Outcome State Fault Refusal := .next (sendBit s.cfg.txUnitPeriod s)

/-- `TONE` (R188): toggle, hold two units. -/
def execTone (s : State) : Host.Outcome State Fault Refusal := .next (sendBit (2 * s.cfg.txUnitPeriod) s)

/-- `TEND` (R189): off, hold the end silence. -/
def execTend (s : State) : Host.Outcome State Fault Refusal :=
  .next (s.setTx { s.tx with level := false, hold := s.cfg.txEndPeriod, phase := .end_ })

/-- `TDONE` (R190): `TXPHASE <- T_IDLE ; TXHOLD <- 0`. -/
def execTdone (s : State) : Host.Outcome State Fault Refusal :=
  .next (s.setTx { s.tx with phase := .idle, hold := 0 })

end Sys2Proof.Machine
end

