-- ==== Sys2Proof/Machine/Dispatch.lean ====
section
/-!
DEFINITION. The dispatch: one arm per constructor of Instr, one direct call of its meaning.
-/

namespace Sys2Proof.Machine

def exec (i : Instr) (s : State) : Host.Outcome State Fault Refusal :=
  match i with
  | .gate _ => Sys2Proof.Machine.execGate s
  | .hold _ _ _ _ _ _ => Sys2Proof.Machine.execHold s
  | .noise _ _ _ _ _ => Sys2Proof.Machine.execNoise s
  | .first _ _ _ _ => Sys2Proof.Machine.execFirst s
  | .calib _ _ _ _ => Sys2Proof.Machine.execCalib s
  | .runt _ => Sys2Proof.Machine.execRunt s
  | .zero => Sys2Proof.Machine.execZero s
  | .one => Sys2Proof.Machine.execOne s
  | .long _ _ => Sys2Proof.Machine.execLong s
  | .recOnly _ _ _ => Sys2Proof.Machine.execRec s
  | .tidle _ _ _ _ => Sys2Proof.Machine.execTidle s
  | .thold _ _ _ => Sys2Proof.Machine.execThold s
  | .tzero => Sys2Proof.Machine.execTzero s
  | .tone => Sys2Proof.Machine.execTone s
  | .tend _ => Sys2Proof.Machine.execTend s
  | .tdone _ _ => Sys2Proof.Machine.execTdone s
  | .nop _ => Sys2Proof.Machine.execNop s
  | .txclr _ => Sys2Proof.Machine.execTxclr s
  | .txpush arg => Sys2Proof.Machine.execTxpush arg s
  | .txgo _ => Sys2Proof.Machine.execTxgo s
  | .rxack _ => Sys2Proof.Machine.execRxack s
  | .errclr _ => Sys2Proof.Machine.execErrclr s
  | .reserved67 _ _ => Sys2Proof.Machine.execReserved67 s
  | .reserved8F _ _ => Sys2Proof.Machine.execReserved8F s

end Sys2Proof.Machine
end

