-- ==== Sys2Proof/Machine/Fetch.lean ====
section
/-!
DEFINITION. What the next step decodes, how the machine moves from step to step and from tick to tick (R8, R72), the
tick with `rst = 1` (R250), and the states in which a given word is the next to be decoded.
-/

namespace Sys2Proof.Machine

/-- The word the next step decodes: the selector of `TXSTEP` (R94), the command presented to `HOSTCMD`, if any
(R96, R200), the vector of `RXSTEP` (R90). -/
def fetchWord (s : State) : Option Word :=
  match s.env.slot with
  | .tx => some (.selector (txSelector s))
  | .host => if s.input.cmdValid then some (.command s.input.cmd) else none
  | .rx => some (.vector (rxVector s))

/-- The end of a tick: the pins of the next one are presented, and the wire of rule R103 takes `tx_out`. -/
def nextTick (s : State) : State :=
  s.setEnv { slot := .tx, inputs := s.env.inputs.tail, ticks := s.env.ticks + 1, wire := s.tx.level }

/-- The order `TXSTEP; HOSTCMD; RXSTEP` (R8, R72). After `GATE` the same `RXSTEP` goes on with one class (R91). -/
def advance (gated : Bool) (s : State) : State :=
  match s.env.slot with
  | .tx => s.setEnv { s.env with slot := .host }
  | .host => s.setEnv { s.env with slot := .rx }
  | .rx => if gated then s else nextTick s

/-- A tick with `rst = 1`: none of the three steps runs, every piece of state takes its reset value (R8, R250).
The configuration is kept: that no other one is presented in such a tick is a DESIGN CHOICE (log entry 17). -/
def resetTick (s : State) : State :=
  (State.resetWith s.cfg).setEnv
    { slot := .tx, inputs := s.env.inputs.tail, ticks := s.env.ticks + 1, wire := false }

/-- Present these pins in the current tick. -/
def setInput (t : TickInput) (s : State) : State := s.setEnv { s.env with inputs := t :: s.env.inputs.tail }

/-- A tick's pins with a level on `rx_in`, no reset and no command. -/
def quietInput (l : Level) : TickInput := ⟨false, .level l, false, 0, 0⟩

/-- Put a command word on the command port of the current tick, with `HOSTCMD` the next step. -/
def placeCommand (w : BitVec 12) (s : State) : State :=
  let t := setInput { quietInput s.rx.level with cmdValid := true, cmd := w } s
  t.setEnv { t.env with slot := .host }

/-- Bring the transmit path to where `TXSTEP` forms this selector: `I`, `E` by the phase, `H` by `TXHOLD`, `R`
and `Bt` by `TXIDX` (the signature's first two bits are 0 and 1). -/
def placeSelector (w : BitVec 5) (s : State) : State :=
  let t := setInput (quietInput s.rx.level) s
  let phase : TxPhase := if w.getLsbD 4 then .idle else if w.getLsbD 2 then .end_ else .data
  let hold := if w.getLsbD 3 then 2 else 1
  let idx := if w.getLsbD 1 then (if w.getLsbD 0 then 1 else 0) else 8 * s.flen
  (t.setTx { t.tx with phase := phase, hold := hold, idx := idx }).setEnv { t.env with slot := .tx }

/-- An interval that gives a vector its bits `G` and `J` (R90). -/
def placeDiff (c : Config) (g j : Bool) : Nat :=
  if g then c.rxEndPeriod + 1
  else if j then c.rxRejectPeriod - 1
  else min (max c.rxRejectPeriod 2) c.rxEndPeriod

/-- A unit that gives an interval of `d` ticks the bits `A`, `B`, `C` (R90, R112). -/
def placeUnit (d : Nat) (a b c : Bool) : Nat :=
  if c then 0 else if b then 2 * d / 3 else if a then d else 2 * d + 1

/-- A configuration with the decode mode of bit `M`, and a reject period of at least `least`: a rejected interval
is shorter than it, and one of count 2 lasts 2 ticks or more. -/
def placeConfig (c : Config) (m : Bool) (least : Nat) : Config :=
  { c with
    decodeMode := if m then .min else .cal
    rxRejectPeriod := max c.rxRejectPeriod least
    rxEndPeriod := max c.rxEndPeriod least }

/-- The phase of bits `PP`, under the gate an open message (R90). -/
def placePhase (g : Bool) (pp : BitVec 2) : RxPhase :=
  if g then .data else if pp = 0 then .idle else if pp = 1 then .start else .data

/-- Bring the receive path, the mode and `rx_in` to where `RXSTEP` forms this vector, as far as rule R92 lets it
be formed. -/
def placeVector (w : BitVec 9) (s : State) : State :=
  let g := w.getLsbD 8
  let j := w.getLsbD 5
  let least := if j && !g then (if w.getLsbD 1 && !w.getLsbD 0 then 3 else 2) else 0
  let c := placeConfig s.cfg (w.getLsbD 7) least
  let d := placeDiff c g j
  let t := setInput (quietInput (if w.getLsbD 6 then !s.rx.level else s.rx.level)) { s with cfg := c }
  (t.setRx { t.rx with
      phase := placePhase g (w.extractLsb' 3 2)
      elapsed := d - 1
      unit := placeUnit d (w.getLsbD 2) (w.getLsbD 1) (w.getLsbD 0) }).setEnv { t.env with slot := .rx }

/-- The state in which the next step decodes this word (log entry 9). -/
def placeWord (w : Word) (s : State) : State :=
  match w with
  | .vector v => placeVector v s
  | .selector t => placeSelector t s
  | .command c => placeCommand c s

end Sys2Proof.Machine
end

