-- ==== Sys2Proof/Machine/Step.lean ====
section
/-!
DEFINITION. One step of the machine: one of the operations of a tick. Three or four steps make a tick (R8, R91):
`TXSTEP`'s action, the command presented, the gate if it fires, and one class of `RXSTEP`.
-/

namespace Sys2Proof.Machine

/-- Run one instruction and move on to the tick's next step. -/
def runInstr (i : Instr) (s : State) : Host.Outcome State Fault Refusal :=
  match exec i s with
  | .next t => .next (advance i.isGate t)
  | .fault r => .fault r
  | .refused r => .refused r

/-- Decode a word and run it; an unreachable word is a fault of the model (R92). -/
def runWord (w : Word) (s : State) : Host.Outcome State Fault Refusal :=
  match decode w with
  | .error _ => .fault .unreachableVector
  | .ok i => if i.wellFormed then runInstr i s else .fault .unreachableVector

/-- One step. A configuration outside rule R6 is refused (R7); a tick with `rst = 1` loads the reset values
(R250); a tick without a command has nothing to do in `HOSTCMD` (R200). -/
def step (s : State) : Host.Outcome State Fault Refusal :=
  if configOk s.cfg then
    if s.input.rst then .next (resetTick s)
    else
      match fetchWord s with
      | none => .next (advance false s)
      | some w => runWord w s
  else .refused .badConfig

/-- The state in which the next step decodes a word of spec/opcode_table.json (log entry 9). -/
def State.withFetchWord (s : State) (nbits w : Nat) : State :=
  match tableWord nbits w with
  | none => s
  | some x => placeWord x s

end Sys2Proof.Machine
end

