-- ==== Sys2Proof/Machine/Stimulus.lean ====
section
/-!
DEFINITION. The line code as runs of levels (spec/30_encoding.md R80, R81, R104) and the stimulus notation of rules
R103 and R104: a program of stimulus lines becomes the platform's list of pins, one entry a tick. R103 leaves `rd_addr`
open in every line, and `cmd` where no command is presented: both are 0 here, the model's choice (log entry 16).
-/

namespace Sys2Proof.Machine

/-- The runs of data bits: levels alternate, a 0 bit lasts one unit, a 1 bit two (R80, R81). -/
def bitRuns (unit : Nat) (l : Level) (bs : List Bool) : List (Level × Nat) :=
  match bs with
  | [] => []
  | b :: t => (l, if b then 2 * unit else unit) :: bitRuns unit (!l) t

/-- `WAVE S, U, bytes`: the start pulse, then one run a bit, the first off (R104). -/
def waveRuns (pulse unit : Nat) (bs : List Byte) : List (Level × Nat) :=
  (true, pulse) :: bitRuns unit false (bitsOf bs)

/-- The levels of a list of runs, one a tick. -/
def levelsOf (runs : List (Level × Nat)) : List Level := runs.flatMap fun r => List.replicate r.2 r.1

/-- The lines of the stimulus notation (R103) and its pseudo-lines (R104). A `RUN` line's `-` of a wired program is
any level. -/
inductive StimLine where
  | reset
  | run (l : Level) (d : Nat)
  | cmd (word : BitVec 12)
  | wire
  | idle (d : Nat)
  | send (bs : List Byte)
  | wave (pulse unit : Nat) (bs : List Byte)
deriving DecidableEq, Repr

/-- What the notation remembers between lines: the level of the last `RUN` (0 if none), and whether the platform
has wired `tx_out` to `rx_in`. -/
structure StimMode where
  last : Level
  wired : Bool
deriving DecidableEq, Repr

/-- What `rx_in` is driven with. -/
def StimMode.drive (m : StimMode) (l : Level) : RxDrive := if m.wired then .wire else .level l

/-- One tick with a command word (R103 `CMD`); `rd_addr = 0` is a DESIGN CHOICE (log entry 16). -/
def cmdTick (m : StimMode) (word : BitVec 12) : TickInput := ⟨false, m.drive m.last, true, word, 0⟩

/-- `d` ticks of one level (R103 `RUN`); `cmd = 0` and `rd_addr = 0` are a DESIGN CHOICE (log entry 16). -/
def runTicks (m : StimMode) (l : Level) (d : Nat) : List TickInput :=
  List.replicate d ⟨false, m.drive l, false, 0, 0⟩

/-- The ticks of a line, and the mode after it. In a `RESET` tick `rx_in`, `cmd` and `rd_addr` are a DESIGN CHOICE
(log entry 16). -/
def expandLine (m : StimMode) (line : StimLine) : List TickInput × StimMode :=
  match line with
  | .reset => ([⟨true, m.drive m.last, false, 0, 0⟩], m)
  | .run l d => (runTicks m l d, { m with last := l })
  | .cmd w => ([cmdTick m w], m)
  | .wire => ([], { m with wired := true })
  | .idle d => (runTicks m false d, { m with last := false })
  | .send bs => ((commandWord 0x1 0 :: bs.map (commandWord 0x2) ++ [commandWord 0x3 0]).map (cmdTick m), m)
  | .wave p u bs =>
    let runs := waveRuns p u bs
    (runs.flatMap fun r => runTicks m r.1 r.2, { m with last := (runs.getLastD (m.last, 0)).1 })

/-- The ticks of a program. -/
def expandFrom (m : StimMode) (lines : List StimLine) : List TickInput :=
  match lines with
  | [] => []
  | l :: t => (expandLine m l).1 ++ expandFrom (expandLine m l).2 t

/-- A stimulus program: the configuration of its `CFG` line and its other lines (R103). -/
structure StimProgram where
  cfg : Config
  lines : List StimLine
deriving DecidableEq, Repr

/-- The machine after reset with the program's configuration, the platform about to drive the program. -/
def StimProgram.start (p : StimProgram) : State :=
  (State.resetWith p.cfg).setEnv { Env.reset with inputs := expandFrom ⟨false, false⟩ p.lines }

end Sys2Proof.Machine
end

