-- ==== Sys2Proof/Machine/Ports.lean ====
section
/-!
DEFINITION. The output ports: functions of the state after a tick's three steps (spec/00_scope.md R9), and the read
port onto the delivered payload (R71, R208).
-/

namespace Sys2Proof.Machine

/-- `rd_data`: `RXPAY[rd_addr]` if `rd_addr < RXLEN`, else `0x00` (R9, R71, R208). It changes nothing (R69). -/
def rdData (s : State) (rdAddr : BitVec 16) : Byte :=
  if rdAddr.toNat < s.res.len then s.payByte rdAddr.toNat else 0x00

/-- `tx_busy`: `TXPHASE != T_IDLE` (R9). -/
def txBusy (s : State) : Bool := s.tx.phase != .idle

/-- The output ports of rule R9. The outputs whose width is a parameter are numbers. -/
structure Outputs where
  txOut : Bool
  txBusy : Bool
  rxDone : Bool
  rxOvr : Bool
  cmdErr : Bool
  rxStat : BitVec 3
  rxCause : BitVec 5
  rxLen : Nat
  rxNbytes : Nat
  minLow : Nat
  minHigh : Nat
  rdData : Byte
deriving DecidableEq, Repr

/-- The outputs with `rd_addr` presented (R9). -/
def outputsAt (s : State) (rdAddr : BitVec 16) : Outputs where
  txOut := s.tx.level
  txBusy := txBusy s
  rxDone := s.res.done
  rxOvr := s.res.ovr
  cmdErr := s.cmdErr
  rxStat := s.res.stat.code
  rxCause := s.res.cause
  rxLen := s.res.len
  rxNbytes := s.res.nbytes
  minLow := s.res.minLow
  minHigh := s.res.minHigh
  rdData := rdData s rdAddr

/-- The outputs with the `rd_addr` that the platform presents; the port is combinational (R208). Which tick's `rd_addr`
goes with a state, and that a state in the middle of a tick shows outputs too, is DEDUCED (log entry 14). -/
def State.outputs (s : State) : Outputs := outputsAt s s.input.rdAddr

end Sys2Proof.Machine
end

