-- ==== Sys2Proof/Machine/Pseudocode.lean ====
section
/-!
DEFINITION. The three steps of a tick as the spec's own pseudocode writes them, without the decode tables:
`RXSTEP` (R110), `TXSTEP` (R184), `HOSTCMD` (R200 to R207), and the tick (R8). They are the second description of the
machine, against which the table-driven step of Machine/Step.lean is stated (log entry 2).
-/

namespace Sys2Proof.Machine

/-- The gate of rule R110: `if RXPHASE != IDLE and diff > RX_END_PERIOD: FINALIZE() ; RXPHASE <- IDLE`. -/
def rxGate (s : State) : State :=
  if s.rx.phase ≠ .idle ∧ s.cfg.rxEndPeriod < s.diff then
    let t := finalize s
    t.setRx { t.rx with phase := .idle }
  else s

/-- An accepted transition of rule R110, with the `diff` computed at the step's start. -/
def rxTransition (rxIn : Level) (d : Nat) (s : State) : State :=
  let held := s.rx.level
  let t := s.setRx { s.rx with level := rxIn, elapsed := 0 }
  match s.rx.phase with
  | .idle => t.setRx { t.rx with unit := 0, phase := .start }
  | .start =>
    let u := record held d t
    u.setRx { u.rx with unit := 9 * d / 10, phase := .data }
  | .data =>
    let u := record held d t
    if s.cfg.decodeMode = .cal then symbol d s.rx.unit u else u

/-- `RXSTEP(rx_in)` (R110). -/
def rxStep (rxIn : Level) (s : State) : State :=
  let d := s.diff
  let t := rxGate s
  if rxIn = t.rx.level then t.setRx { t.rx with elapsed := d }
  else if d < t.cfg.rxRejectPeriod then t.setRx { t.rx with elapsed := d }
  else rxTransition rxIn d t

/-- `TXSTEP()` (R184). -/
def txStep (s : State) : State :=
  if s.tx.phase = .idle then s
  else if 1 < s.tx.hold then s.setTx { s.tx with hold := s.tx.hold - 1 }
  else if s.tx.phase = .end_ then s.setTx { s.tx with phase := .idle, hold := 0 }
  else if s.tx.idx < 8 * s.flen then
    s.setTx
      { s.tx with
        level := !s.tx.level
        hold := if s.frameBit s.tx.idx then 2 * s.cfg.txUnitPeriod else s.cfg.txUnitPeriod
        idx := s.tx.idx + 1
        phase := .data }
  else s.setTx { s.tx with level := false, hold := s.cfg.txEndPeriod, phase := .end_ }

/-- `HOSTCMD(cmd_valid, cmd)`, by the numbers of rule R97 (R200 to R207). -/
def hostCmd (valid : Bool) (cmd : BitVec 12) (s : State) : State :=
  if valid then
    let arg : Byte := cmd.extractLsb' 0 8
    match (cmd.extractLsb' 8 4).toNat with
    | 0 => s
    | 1 => if s.tx.phase = .idle then s.setTx { s.tx with len := 0 } else refuseCmd s
    | 2 =>
      if s.tx.phase = .idle ∧ s.tx.len < s.cfg.txbufCap then
        (s.setMem (s.mem.writeTxbuf s.tx.len arg)).setTx { s.tx with len := s.tx.len + 1 }
      else refuseCmd s
    | 3 => if s.tx.phase = .idle then startTx s else refuseCmd s
    | 4 => acknowledge s
    | 5 => s.setCmdErr false
    | _ => refuseCmd s
  else s

/-- A tick with `rst = 0`: `TXSTEP; HOSTCMD; RXSTEP`, each seeing the state the one before left (R8, R72). -/
def tick (s : State) : State := rxStep s.rxIn (hostCmd s.input.cmdValid s.input.cmd (txStep s))

/-- The receive path fed with a level a tick (R125). -/
def rxFeed (ls : List Level) (s : State) : State := ls.foldl (fun t l => rxStep l t) s

/-- The transmit path alone, for a number of ticks. -/
def txRun (n : Nat) (s : State) : State :=
  match n with
  | 0 => s
  | k + 1 => txRun k (txStep s)

/-- The bits of a list, pushed one after the other (R140, R143). -/
def pushBits (bs : List Bool) (s : State) : State := bs.foldl (fun t b => pushBit b t) s

end Sys2Proof.Machine
end

