-- ==== Sys2Proof/Safety.lean ====
section
/-!
DEFINITION. What counts as a safe state and a safe run, in the terms the statements use: every register within the
width the spec gives it, the buffers in canonical form, the transmitter's level, hold and bit index in step, the
capture window as spec/20_memory.md rule R60 says, and the per-message state clean before the data begins.
-/

namespace Sys2Proof.Machine

/-- Every register fits the width the spec gives it (R24, R25, R32 to R34, R42, R44, R45, R52 to R54). -/
structure WidthsOk (s : State) : Prop where
  elapsed : s.rx.elapsed < 2 ^ s.cfg.tw
  unit : s.rx.unit < 2 ^ s.cfg.tw
  rxcnt : s.rx.rxcnt ≤ s.cfg.rxbufCap
  skip : s.rx.skip ≤ s.cfg.rxStartBits
  cwcnt : s.rx.cwcnt ≤ s.cfg.cwCap
  len : s.res.len < 2 ^ (8 * s.cfg.lenBytes.toNat)
  lenCap : s.res.len ≤ s.cfg.rxbufCap
  nbytes : s.res.nbytes ≤ s.cfg.rxbufCap
  minLow : s.res.minLow ≤ s.cfg.rxEndPeriod
  minHigh : s.res.minHigh ≤ s.cfg.rxEndPeriod
  hold : s.tx.hold < 2 ^ s.cfg.tw
  txlen : s.tx.len ≤ s.cfg.txbufCap
  idx : s.tx.idx ≤ 8 * (4 + s.cfg.lenBytes.toNat + s.cfg.txbufCap + 1)

/-- The transmitter's registers in step with each other (R81, R183 to R191): off when idle; the start pulse on;
data bit `TXIDX - 1` on the pin, off for the first bit and alternating; off in the end silence. -/
structure TxInStep (s : State) : Prop where
  idle : s.tx.phase = .idle → s.tx.level = false ∧ s.tx.hold = 0
  start : s.tx.phase = .start →
    s.tx.level = true ∧ s.tx.idx = 0 ∧ 1 ≤ s.tx.hold ∧ s.tx.hold ≤ startPulse s.cfg
  data : s.tx.phase = .data →
    s.tx.level = (s.tx.idx % 2 == 0) ∧ 1 ≤ s.tx.idx ∧ s.tx.idx ≤ 8 * s.flen
      ∧ 1 ≤ s.tx.hold ∧ s.tx.hold ≤ 2 * s.cfg.txUnitPeriod
  ending : s.tx.phase = .end_ →
    s.tx.level = false ∧ s.tx.idx = 8 * s.flen ∧ 1 ≤ s.tx.hold ∧ s.tx.hold ≤ s.cfg.txEndPeriod

/-- The capture window and the open message (R60, R116): every recorded event carries its own index and a length
within the thresholds, levels alternate and the last differs from the tracked one, a dropped event means a full
window, and before the data begins the per-message state is clean. -/
structure MessageOk (s : State) : Prop where
  event : ∀ k, k < s.rx.cwcnt →
    (s.mem.readCw k).seq = k ∧ s.cfg.rxRejectPeriod ≤ (s.mem.readCw k).dur ∧ 1 ≤ (s.mem.readCw k).dur
      ∧ (s.mem.readCw k).dur ≤ s.cfg.rxEndPeriod
  alternate : ∀ k, k + 1 < s.rx.cwcnt → (s.mem.readCw (k + 1)).level = !(s.mem.readCw k).level
  last : s.rx.cwovf = false → 0 < s.rx.cwcnt → (s.mem.readCw (s.rx.cwcnt - 1)).level = !s.rx.level
  full : s.rx.cwovf = true → s.cfg.cwCap ≤ s.rx.cwcnt
  clean : s.rx.phase ≠ .data →
    s.rx.cwcnt = 0 ∧ s.rx.rxcnt = 0 ∧ s.rx.shreg = 0 ∧ s.rx.bitcnt = 0 ∧ s.rx.skip = s.cfg.rxStartBits
      ∧ s.rx.bad = false ∧ s.rx.cwovf = false

/-- Two states that differ at most in what no rule and no port can read: buffer entries at or beyond the counts
(R35, R43, R54, U32). -/
structure SameVisible (s t : State) : Prop where
  cfg : s.cfg = t.cfg
  rx : s.rx = t.rx
  res : s.res = t.res
  tx : s.tx = t.tx
  cmdErr : s.cmdErr = t.cmdErr
  env : s.env = t.env
  cw : ∀ k, k < s.rx.cwcnt → s.mem.readCw k = t.mem.readCw k
  rxbuf : ∀ i, i < s.rx.rxcnt → s.mem.readRxbuf i = t.mem.readRxbuf i
  rxpay : ∀ i, i < s.res.len → s.mem.readRxpay i = t.mem.readRxpay i
  txbuf : ∀ i, i < s.tx.len → s.mem.readTxbuf i = t.mem.readTxbuf i

/-- Nothing changed but the receive path's working state, the capture window and the byte buffer (R73). -/
structure SameOutsideReceiver (s t : State) : Prop where
  cfg : t.cfg = s.cfg
  res : t.res = s.res
  tx : t.tx = s.tx
  cmdErr : t.cmdErr = s.cmdErr
  env : t.env = s.env
  rxpay : ∀ i, t.mem.readRxpay i = s.mem.readRxpay i
  txbuf : ∀ i, t.mem.readTxbuf i = s.mem.readTxbuf i

/-- Nothing changed but the transmit path's registers (R73). -/
structure SameOutsideTransmitter (s t : State) : Prop where
  cfg : t.cfg = s.cfg
  rx : t.rx = s.rx
  res : t.res = s.res
  txlen : t.tx.len = s.tx.len
  cmdErr : t.cmdErr = s.cmdErr
  env : t.env = s.env
  mem : t.mem = s.mem

/-- What `RECORD(LEVEL, diff)` does to the capture window (R113), as it shows between two states. -/
structure EventAppended (s t : State) : Prop where
  fits : s.rx.cwcnt < s.cfg.cwCap →
    t.rx.cwcnt = s.rx.cwcnt + 1 ∧ t.rx.cwovf = s.rx.cwovf
      ∧ t.mem.readCw s.rx.cwcnt = ⟨s.rx.cwcnt, s.rx.level, s.diff⟩
  dropped : s.cfg.cwCap ≤ s.rx.cwcnt → t.rx.cwcnt = s.rx.cwcnt ∧ t.rx.cwovf = true
  others : ∀ k, k ≠ s.rx.cwcnt ∨ s.cfg.cwCap ≤ s.rx.cwcnt → t.mem.readCw k = s.mem.readCw k

/-- What `PUSHBIT(b)` does to the assembler (R140), as it shows between two states. -/
structure BitPushed (b : Bool) (s t : State) : Prop where
  discarded : 0 < s.rx.skip →
    t.rx.skip = s.rx.skip - 1 ∧ t.rx.shreg = s.rx.shreg ∧ t.rx.bitcnt = s.rx.bitcnt ∧ t.rx.rxcnt = s.rx.rxcnt
  shifted : s.rx.skip = 0 →
    t.rx.skip = 0 ∧ t.rx.shreg = (s.rx.shreg <<< 1) ||| (if b then 1 else 0)
      ∧ t.rx.bitcnt = (if s.rx.bitcnt = 7 then 0 else s.rx.bitcnt + 1)
  counted : s.rx.skip = 0 →
    t.rx.rxcnt = (if s.rx.bitcnt = 7 ∧ s.rx.rxcnt < s.cfg.rxbufCap then s.rx.rxcnt + 1 else s.rx.rxcnt)
  stored : s.rx.skip = 0 → s.rx.bitcnt = 7 → s.rx.rxcnt < s.cfg.rxbufCap →
    t.mem.readRxbuf s.rx.rxcnt = t.rx.shreg
  others : ∀ i, i ≠ s.rx.rxcnt ∨ 0 < s.rx.skip ∨ s.rx.bitcnt ≠ 7 ∨ s.cfg.rxbufCap ≤ s.rx.rxcnt →
    t.mem.readRxbuf i = s.mem.readRxbuf i

/-- No bit was pushed: the assembler and the byte buffer are as they were. -/
structure NoBitPushed (s t : State) : Prop where
  skip : t.rx.skip = s.rx.skip
  shreg : t.rx.shreg = s.rx.shreg
  bitcnt : t.rx.bitcnt = s.rx.bitcnt
  rxcnt : t.rx.rxcnt = s.rx.rxcnt
  rxbuf : ∀ i, t.mem.readRxbuf i = s.mem.readRxbuf i

/-- The timing causes of a message are clear (R152): both minima are shorter than `RX_END_PERIOD`, neither is below
`RX_REJECT_PERIOD`, and the window did not overflow. -/
abbrev timingClear (s : State) : Prop :=
  windowMin s false < s.cfg.rxEndPeriod ∧ windowMin s true < s.cfg.rxEndPeriod ∧
    s.cfg.rxRejectPeriod ≤ windowMin s false ∧ s.cfg.rxRejectPeriod ≤ windowMin s true ∧ s.rx.cwovf = false

/-- The message as the framer sees it (R150, R153): in `MIN` mode with the timing causes clear the window is decoded
first, against the minima; otherwise the bytes are those assembled so far. -/
def framerView (s : State) : State :=
  if s.cfg.decodeMode = .min ∧ timingClear s then winDecode (windowMin s false) (windowMin s true) s else s

/-- A safe step: the machine goes on (`No condition in this design is treated as fatal`, R227). -/
def goesOn (s : State) : Prop := ∃ t, step s = .next t

/-- The state after a number of steps from a state, none of which stops. -/
def reaches (s : State) (k : Nat) (t : State) : Prop := Host.Core.run Sys2Proof.core k s = .next t

end Sys2Proof.Machine
end

