-- ==== Sys2Proof/Certificates/Slice0/Obligations.lean ====
section
/-!
DEFINITION. The statements for the provers, from the numbered rules of spec/. Each is a proposition; its title, basis
and citations stand in OBLIGATIONS.json. A premise `s.mem.wf`, `WidthsOk s`, `TxInStep s` or `MessageOk s` is an
invariant of the model, stated here as one: `ResetMeetsInvariants` and the four `StepKeeps…` statements.
-/

open Sys2Proof Sys2Proof.Machine

/-! ## The decode tables -/

/-- Decoding the word of a well-formed instruction gives the instruction back, with every field (R90 to R97). -/
def Obligations.DecodeOfEncodeIsIdentity : Prop :=
  ∀ i : Instr, i.wellFormed = true → decode (encode i) = .ok i

/-- No bit of a word is dropped: encoding what the decoder read gives the word back (R90 to R97). -/
def Obligations.EncodeOfDecodeIsIdentity : Prop :=
  ∀ (w : Word) (i : Instr), decode w = .ok i → encode i = w

/-- A reachable word falls under exactly one row of the opcode table, the row of the instruction it decodes to;
`GATE`, which is done before a class is selected, apart (R91, R92, R94, R97). -/
def Obligations.ReachableWordHasOneRow : Prop :=
  ∀ (w : Word) (i : Instr), decode w = .ok i → i.wellFormed = true → i.isGate = false →
    ∀ r ∈ opcodeTable, rowMatches r w = true ↔ r.mnemonic = i.mnemonic

/-- Words written out from the encodings of rules R91, R94 and R97 decode to the instructions they stand for. -/
def Obligations.WordsFromTheSpecDecode : Prop :=
  decode (.vector 0b100000000) = .ok (.gate 0) ∧
  decode (.vector 0b001100100) = .ok (.noise false 0 true false false) ∧
  decode (.vector 0b001010110) = .ok .one ∧
  decode (.vector 0b011010111) = .ok (.recOnly true true true) ∧
  decode (.selector 0b00010) = .ok .tzero ∧
  decode (.selector 0b00110) = .ok (.tdone true false) ∧
  decode (.command 0x24F) = .ok (.txpush 0x4F) ∧
  decode (.command 0x7FF) = .ok (.reserved67 true 0xFF)

/-! ## The step -/

/-- A step runs the decoded instruction: with a configuration that meets rule R6, outside reset, when the word the
machine forms decodes to a well-formed instruction, `exec` of it answers a next state and the step is that; around
`exec` the step only moves to the tick's next operation (`advance`), which touches the model's own fields alone. That
a step is one operation of a tick is the model's choice (log entry 2). -/
def Obligations.StepRunsDecodedInstruction : Prop :=
  ∀ (s : State) (w : Word) (i : Instr), configOk s.cfg = true → s.input.rst = false →
    fetchWord s = some w → decode w = .ok i → i.wellFormed = true →
    ∃ t, exec i s = .next t ∧ step s = .next (advance i.isGate t) ∧
      (advance i.isGate t).cfg = t.cfg ∧ (advance i.isGate t).rx = t.rx ∧ (advance i.isGate t).res = t.res ∧
      (advance i.isGate t).tx = t.tx ∧ (advance i.isGate t).cmdErr = t.cmdErr ∧ (advance i.isGate t).mem = t.mem ∧
      (advance i.isGate t).env =
        (match s.env.slot with
        | .tx => { s.env with slot := .host }
        | .host => { s.env with slot := .rx }
        | .rx => if i.isGate then s.env else (nextTick t).env)

/-- With `cmd_valid = 0` nothing is done, whatever `cmd` holds: the step only goes on to `RXSTEP` (R96, R200).
That going on is a step of its own is the model's choice (log entry 2). -/
def Obligations.NoCommandDoesNothing : Prop :=
  ∀ s : State, configOk s.cfg = true → s.input.rst = false → s.env.slot = .host → s.input.cmdValid = false →
    step s = .next (s.setEnv { s.env with slot := .rx })

/-- A tick with `rst = 1` runs none of the three steps and loads the reset values, whatever the state and the other
pins (R59, R250). -/
def Obligations.ResetTickLoadsResetValues : Prop :=
  ∀ s : State, configOk s.cfg = true → s.input.rst = true → ∃ t, step s = .next t ∧
    (t.rx.phase = .idle ∧ t.rx.level = false ∧ t.rx.elapsed = 0 ∧ t.rx.unit = 0 ∧ t.rx.bad = false ∧
      t.rx.cwovf = false ∧ t.rx.shreg = 0 ∧ t.rx.bitcnt = 0 ∧ t.rx.rxcnt = 0 ∧ t.rx.skip = s.cfg.rxStartBits ∧
      t.rx.cwcnt = 0) ∧
    (t.res.stat = .none ∧ t.res.cause = 0 ∧ t.res.len = 0 ∧ t.res.nbytes = 0 ∧ t.res.minLow = s.cfg.rxEndPeriod ∧
      t.res.minHigh = s.cfg.rxEndPeriod ∧ t.res.done = false ∧ t.res.ovr = false) ∧
    (t.tx.phase = .idle ∧ t.tx.level = false ∧ t.tx.hold = 0 ∧ t.tx.idx = 0 ∧ t.tx.len = 0) ∧ t.cmdErr = false

/-- A configuration that breaks a constraint of rule R6 is refused (R7); that it is refused at every step is the
model's reading (log entry 13). -/
def Obligations.BadConfigIsRefused : Prop :=
  ∀ s : State, configOk s.cfg = false → step s = .refused .badConfig

/-- With a configuration that meets rule R6 no state stops the machine: no fault of the model is ever met and every
step answers a next state (R92, R227). -/
def Obligations.EveryStepGoesOn : Prop :=
  ∀ s : State, configOk s.cfg = true → goesOn s

/-- The table-driven steps of one tick do what the spec's pseudocode of `TXSTEP; HOSTCMD; RXSTEP` does (R8, R90, R91,
R94, R97, R110, R184, R200). That a tick is cut into three or four steps is the model's choice (log entries 2 and
10). -/
def Obligations.StepsOfATickRefinePseudocode : Prop :=
  ∀ s : State, configOk s.cfg = true → s.env.slot = .tx → s.input.rst = false →
    ∃ k, (k = 3 ∨ k = 4) ∧ reaches s k (nextTick (tick s))

/-- No step changes the configuration (R209, R255, R256); that it is a field of the state is the model's choice (log
entries 1 and 13), and so is that a tick with `rst = 1` keeps it too (log entry 17). -/
def Obligations.ConfigurationNeverChanges : Prop :=
  ∀ s t : State, step s = .next t → t.cfg = s.cfg

/-! ## Invariants -/

/-- The state after reset meets every invariant, for every configuration that meets rule R6 (R35, R59).
That the buffers are listed empty is the model's choice (log entry 5). -/
def Obligations.ResetMeetsInvariants : Prop :=
  ∀ c : Config, configOk c = true →
    (State.resetWith c).mem.wf ∧ WidthsOk (State.resetWith c) ∧ TxInStep (State.resetWith c) ∧
      MessageOk (State.resetWith c)

/-- Every step keeps the buffers in canonical form, which is the model's own (log entry 5). -/
def Obligations.StepKeepsMemoryCanonical : Prop :=
  ∀ s t : State, s.mem.wf → step s = .next t → t.mem.wf

/-- Every step keeps every register within its width: no counter overflows (R7, R11). That a
register of parametric width is a number is the model's choice (log entry 6). -/
def Obligations.StepKeepsWidths : Prop :=
  ∀ s t : State, WidthsOk s → step s = .next t → WidthsOk t

/-- Every step keeps the transmitter's level, hold and bit index in step (R81, R183 to R191). -/
def Obligations.StepKeepsTransmitterInStep : Prop :=
  ∀ s t : State, TxInStep s → step s = .next t → TxInStep t

/-- Every step keeps the capture window as rule R60 says, and the message clean before its data (R116). -/
def Obligations.StepKeepsMessageOk : Prop :=
  ∀ s t : State, s.mem.wf → MessageOk s → step s = .next t → MessageOk t

/-! ## The interval classes -/

/-- `HOLD` and `NOISE` from the same state leave the same state: `ELAPSED` becomes `diff`, saturating, and nothing
else changes (R114, R115, R123). -/
def Obligations.HoldAndNoiseOnlyPassTime : Prop :=
  ∀ (s : State) (m j : Bool) (pp : BitVec 2) (a b c : Bool), ∃ t,
    exec (.hold m j pp a b c) s = .next t ∧ exec (.noise m pp a b c) s = .next t ∧
    t.rx.elapsed = (if s.rx.elapsed < 2 ^ s.cfg.tw - 1 then s.rx.elapsed + 1 else 2 ^ s.cfg.tw - 1) ∧
    t.rx = { s.rx with elapsed := t.rx.elapsed } ∧ SameOutsideReceiver s t ∧ t.mem = s.mem

/-- `FIRST` tracks the new level, clears `ELAPSED` and `UNIT`, opens the message, and records and pushes nothing
(R116). -/
def Obligations.FirstOpensAMessage : Prop :=
  ∀ (s : State) (m a b c : Bool), ∃ t, exec (.first m a b c) s = .next t ∧
    t.rx = { s.rx with level := s.rxIn, elapsed := 0, unit := 0, phase := .start } ∧
    SameOutsideReceiver s t ∧ t.mem = s.mem

/-- `CALIB` records the start pulse and fixes the unit at `floor(9*diff/10)`; it pushes no bit (R113, R117). -/
def Obligations.CalibFixesTheUnit : Prop :=
  ∀ (s : State) (m a b c : Bool), s.mem.wf → ∃ t, exec (.calib m a b c) s = .next t ∧
    t.rx.phase = .data ∧ t.rx.level = s.rxIn ∧ t.rx.elapsed = 0 ∧
    (10 * t.rx.unit ≤ 9 * s.diff ∧ 9 * s.diff < 10 * (t.rx.unit + 1)) ∧ t.rx.bad = s.rx.bad ∧
    EventAppended s t ∧ NoBitPushed s t ∧ SameOutsideReceiver s t

/-- `ZERO` and `ONE` record the interval and push their bit (R113, R119, R120, R140). -/
def Obligations.ZeroAndOnePushTheirBit : Prop :=
  ∀ s : State, s.mem.wf →
    (∃ t, exec .zero s = .next t ∧ BitPushed false s t ∧ EventAppended s t ∧ SameOutsideReceiver s t ∧
      t.rx.level = s.rxIn ∧ t.rx.elapsed = 0 ∧ t.rx.phase = s.rx.phase ∧ t.rx.unit = s.rx.unit ∧
      t.rx.bad = s.rx.bad) ∧
    (∃ t, exec .one s = .next t ∧ BitPushed true s t ∧ EventAppended s t ∧ SameOutsideReceiver s t ∧
      t.rx.level = s.rxIn ∧ t.rx.elapsed = 0 ∧ t.rx.phase = s.rx.phase ∧ t.rx.unit = s.rx.unit ∧
      t.rx.bad = s.rx.bad)

/-- `RUNT` and `LONG` record the interval and set `BAD`; no bit is pushed (R113, R118). -/
def Obligations.RuntAndLongMarkTheMessageBad : Prop :=
  ∀ (s : State) (a b c : Bool), s.mem.wf → ∃ t, exec (.runt b) s = .next t ∧ exec (.long a c) s = .next t ∧
    t.rx.bad = true ∧ EventAppended s t ∧ NoBitPushed s t ∧ SameOutsideReceiver s t ∧
    t.rx.level = s.rxIn ∧ t.rx.elapsed = 0 ∧ t.rx.phase = s.rx.phase ∧ t.rx.unit = s.rx.unit

/-- `REC` only records the interval: no bit, and `BAD` as it was (R113, R121). -/
def Obligations.RecOnlyRecords : Prop :=
  ∀ (s : State) (a b c : Bool), s.mem.wf → ∃ t, exec (.recOnly a b c) s = .next t ∧
    t.rx.bad = s.rx.bad ∧ EventAppended s t ∧ NoBitPushed s t ∧ SameOutsideReceiver s t ∧
    t.rx.level = s.rxIn ∧ t.rx.elapsed = 0 ∧ t.rx.phase = s.rx.phase ∧ t.rx.unit = s.rx.unit

/-- `GATE` ends the message: the kind posted is the first failing check on the framer's view of it (`framerView`: in
`MIN` mode with clear timing causes the window is decoded first), with the cause bits, `RXNBYTES` and the minima; an `OK`
payload is decrypted into `RXPAY`; an unacknowledged result is marked overwritten; the per-message state is clean as
after reset; and `LEVEL`, `ELAPSED`, `UNIT`, the transmit path, `CMDERR` and the other buffers are not touched (R111,
R150, R160 to R162). That the stored `RXPAY` entries stay as they were when the status is not `OK`, and at or beyond
`RXLEN`, is the model's choice: the spec leaves them unspecified (log entry 11). -/
def Obligations.GateEndsTheMessage : Prop :=
  ∀ (s : State) (low : BitVec 8), ∃ t, exec (.gate low) s = .next t ∧
    t.rx = { RxPath.reset s.cfg with level := s.rx.level, elapsed := s.rx.elapsed, unit := s.rx.unit } ∧
    t.res.done = true ∧ t.res.ovr = (s.res.ovr || s.res.done) ∧ t.res.stat ≠ .none ∧
    t.res.stat = verdict (framerView s) t.res.cause ∧ t.res.nbytes = (framerView s).rx.rxcnt ∧
    (t.res.stat = .badTiming ↔ t.res.cause ≠ 0) ∧ (t.res.stat ≠ .ok → t.res.len = 0) ∧
    (t.res.stat = .ok → t.res.len = rxLenField (framerView s) ∧ (s.mem.wf → ∀ i, i < t.res.len →
      t.mem.readRxpay i = ciph s.cfg ((framerView s).mem.readRxbuf (payloadAt s.cfg + i)) i)) ∧
    t.res.minLow = windowMin s false ∧ t.res.minHigh = windowMin s true ∧
    t.cfg = s.cfg ∧ t.tx = s.tx ∧ t.cmdErr = s.cmdErr ∧ t.env = s.env ∧
    (∀ k, t.mem.readCw k = s.mem.readCw k) ∧ (∀ i, t.mem.readTxbuf i = s.mem.readTxbuf i) ∧
    (t.res.stat ≠ .ok → ∀ i, t.mem.readRxpay i = s.mem.readRxpay i) ∧
    (∀ i, t.res.len ≤ i → t.mem.readRxpay i = s.mem.readRxpay i)

/-- The cause bits that `GATE` posts, each by its own condition: `NOMIN`, `SUBREJ` and `WINOVF` from the window,
`BADSYM` from the framer's view (so after the window decode of `MIN` mode), `ALLZERO` only when the other four are
clear; and a message with an invalid symbol ends `BadTiming` (R41, R150, R152, R154, R163). -/
def Obligations.GatePostsEveryCauseBit : Prop :=
  ∀ (s : State) (low : BitVec 8), ∃ t, exec (.gate low) s = .next t ∧
    (t.res.cause.getLsbD 0 = true ↔
      s.cfg.rxEndPeriod ≤ windowMin s false ∨ s.cfg.rxEndPeriod ≤ windowMin s true) ∧
    (t.res.cause.getLsbD 1 = true ↔
      windowMin s false < s.cfg.rxRejectPeriod ∨ windowMin s true < s.cfg.rxRejectPeriod) ∧
    (t.res.cause.getLsbD 2 = true ↔ (framerView s).rx.bad = true) ∧
    (t.res.cause.getLsbD 3 = true ↔ s.rx.cwovf = true) ∧
    (t.res.cause.getLsbD 4 = true ↔
      timingClear s ∧ (framerView s).rx.bad = false ∧ 1 ≤ (framerView s).rx.rxcnt ∧
        ∀ i, i < (framerView s).rx.rxcnt → (framerView s).mem.readRxbuf i = 0) ∧
    ((framerView s).rx.bad = true → t.res.stat = .badTiming)

/-! ## The transmit actions -/

/-- `TIDLE`, selected by `I = 1`, changes nothing; `THOLD`, selected by `I = 0, H = 1`, takes one tick off `TXHOLD`
and changes nothing else (R185, R186). -/
def Obligations.TidleAndTholdEffects : Prop :=
  ∀ (s : State) (h e r bt : Bool),
    decode (.selector (selectorOf true h e r bt)) = .ok (.tidle h e r bt) ∧
    decode (.selector (selectorOf false true e r bt)) = .ok (.thold e r bt) ∧
    exec (.tidle h e r bt) s = .next s ∧
    (1 < s.tx.hold → ∃ t, exec (.thold e r bt) s = .next t ∧ t.tx.hold + 1 = s.tx.hold ∧
      t.tx = { s.tx with hold := t.tx.hold } ∧ SameOutsideTransmitter s t)

/-- `TZERO` and `TONE` toggle the level, hold it one unit or two, and advance to the next bit (R187, R188). -/
def Obligations.TzeroAndToneSendABit : Prop :=
  ∀ s : State, decode (.selector 0b00010) = .ok .tzero ∧ decode (.selector 0b00011) = .ok .tone ∧
    (∃ t, exec .tzero s = .next t ∧ t.tx.level = !s.tx.level ∧ t.tx.hold = s.cfg.txUnitPeriod ∧
      t.tx.idx = s.tx.idx + 1 ∧ t.tx.phase = .data ∧ SameOutsideTransmitter s t) ∧
    (∃ t, exec .tone s = .next t ∧ t.tx.level = !s.tx.level ∧ t.tx.hold = 2 * s.cfg.txUnitPeriod ∧
      t.tx.idx = s.tx.idx + 1 ∧ t.tx.phase = .data ∧ SameOutsideTransmitter s t)

/-- `TEND` goes off and holds the end silence; `TDONE` becomes idle; both keep `TXIDX` and the payload (R189, R190). -/
def Obligations.TendAndTdoneEndTheTransmission : Prop :=
  ∀ (s : State) (r bt : Bool),
    decode (.selector (selectorOf false false false false bt)) = .ok (.tend bt) ∧
    decode (.selector (selectorOf false false true r bt)) = .ok (.tdone r bt) ∧
    (∃ t, exec (.tend bt) s = .next t ∧ t.tx.level = false ∧ t.tx.hold = s.cfg.txEndPeriod ∧ t.tx.phase = .end_ ∧
      t.tx.idx = s.tx.idx ∧ SameOutsideTransmitter s t) ∧
    (∃ t, exec (.tdone r bt) s = .next t ∧ t.tx.phase = .idle ∧ t.tx.hold = 0 ∧ t.tx.level = s.tx.level ∧
      t.tx.idx = s.tx.idx ∧ SameOutsideTransmitter s t)

/-! ## The host commands -/

/-- `NOP` has no effect; `RXACK` clears `RXDONE` and `RXOVR` and no other result register; `ERRCLR` clears `CMDERR`;
none is ever refused, and nothing else changes (R201, R205, R206). -/
def Obligations.NopRxackErrclrNeverRefused : Prop :=
  ∀ (s : State) (arg : Byte),
    (decode (.command (commandWord 0x0 arg)) = .ok (.nop arg) ∧
      decode (.command (commandWord 0x4 arg)) = .ok (.rxack arg) ∧
      decode (.command (commandWord 0x5 arg)) = .ok (.errclr arg)) ∧
    exec (.nop arg) s = .next s ∧
    (∃ t, exec (.rxack arg) s = .next t ∧ t.res = { s.res with done := false, ovr := false } ∧ t.cfg = s.cfg ∧
      t.rx = s.rx ∧ t.tx = s.tx ∧ t.cmdErr = s.cmdErr ∧ t.mem = s.mem ∧ t.env = s.env) ∧
    (∃ t, exec (.errclr arg) s = .next t ∧ t.cmdErr = false ∧ t.cfg = s.cfg ∧ t.rx = s.rx ∧ t.res = s.res ∧
      t.tx = s.tx ∧ t.mem = s.mem ∧ t.env = s.env)

/-- `TXCLR`, op 0x1: while idle it empties the payload and changes nothing else; while a transmission runs it is
refused, which sets `CMDERR` and changes nothing else (R200, R202). -/
def Obligations.TxclrEmptiesThePayload : Prop :=
  ∀ (s : State) (arg : Byte), decode (.command (commandWord 0x1 arg)) = .ok (.txclr arg) ∧
    (s.tx.phase = .idle → ∃ t, exec (.txclr arg) s = .next t ∧ t.tx = { s.tx with len := 0 } ∧ t.cfg = s.cfg ∧
      t.rx = s.rx ∧ t.res = s.res ∧ t.cmdErr = s.cmdErr ∧ t.mem = s.mem ∧ t.env = s.env) ∧
    (s.tx.phase ≠ .idle → exec (.txclr arg) s = .next { s with cmdErr := true })

/-- `TXPUSH`, op 0x2: while idle and with room it appends its byte: the entry at the old `TXLEN` is the byte, every
other entry of every buffer is as before, and nothing else changes; while a transmission runs or on a full buffer it
is refused, which sets `CMDERR` and changes nothing else (R200, R203). -/
def Obligations.TxpushAppendsItsByte : Prop :=
  ∀ (s : State) (arg : Byte), decode (.command (commandWord 0x2 arg)) = .ok (.txpush arg) ∧
    (s.mem.wf → s.tx.phase = .idle → s.tx.len < s.cfg.txbufCap →
      ∃ t, exec (.txpush arg) s = .next t ∧ t.tx = { s.tx with len := s.tx.len + 1 } ∧
        t.mem.readTxbuf s.tx.len = arg ∧ (∀ i, i ≠ s.tx.len → t.mem.readTxbuf i = s.mem.readTxbuf i) ∧
        (∀ k, t.mem.readCw k = s.mem.readCw k) ∧ (∀ i, t.mem.readRxbuf i = s.mem.readRxbuf i) ∧
        (∀ i, t.mem.readRxpay i = s.mem.readRxpay i) ∧
        t.cfg = s.cfg ∧ t.rx = s.rx ∧ t.res = s.res ∧ t.cmdErr = s.cmdErr ∧ t.env = s.env) ∧
    (s.tx.phase ≠ .idle ∨ s.cfg.txbufCap ≤ s.tx.len → exec (.txpush arg) s = .next { s with cmdErr := true })

/-- `TXGO`, op 0x3: while idle it starts the pulse of `TX_START_PERIOD * TX_START_COUNT` ticks, with an empty payload
too; while a transmission runs, the end silence included, it is refused, which sets `CMDERR` and changes nothing else
(R183, R200, R204). -/
def Obligations.TxgoStartsThePulse : Prop :=
  ∀ (s : State) (arg : Byte), decode (.command (commandWord 0x3 arg)) = .ok (.txgo arg) ∧
    (s.tx.phase = .idle → ∃ t, exec (.txgo arg) s = .next t ∧ t.tx.level = true ∧
      t.tx.hold = s.cfg.txStartPeriod * s.cfg.txStartCount ∧ t.tx.idx = 0 ∧ t.tx.phase = .start ∧
      SameOutsideTransmitter s t) ∧
    (s.tx.phase ≠ .idle → exec (.txgo arg) s = .next { s with cmdErr := true })

/-- The reserved opcodes `0x6` to `0xF` set `CMDERR` and do nothing else, whatever the argument (R207). -/
def Obligations.ReservedOpcodeOnlySetsCmdErr : Prop :=
  (∀ (s : State) (lo : Bool) (hi : BitVec 3) (arg : Byte),
    exec (.reserved67 lo arg) s = .next { s with cmdErr := true } ∧
    exec (.reserved8F hi arg) s = .next { s with cmdErr := true }) ∧
  ∀ (op : BitVec 4) (arg : Byte),
    (6 ≤ op.toNat → op.toNat < 8 →
      decode (.command (commandWord op arg)) = .ok (.reserved67 (op.getLsbD 0) arg)) ∧
    (8 ≤ op.toNat → decode (.command (commandWord op arg)) = .ok (.reserved8F (op.extractLsb' 0 3) arg))

/-- No command touches the receive path's working state, its window and byte buffer, the delivered payload, or the
configuration; of the result registers none but `RXDONE` and `RXOVR` can change (R209). -/
def Obligations.CommandsLeaveTheReceiverAlone : Prop :=
  ∀ (i : Instr) (s t : State), i.isCommand = true → exec i s = .next t →
    t.cfg = s.cfg ∧ t.rx = s.rx ∧ (∀ k, t.mem.readCw k = s.mem.readCw k) ∧
    (∀ k, t.mem.readRxbuf k = s.mem.readRxbuf k) ∧ (∀ k, t.mem.readRxpay k = s.mem.readRxpay k) ∧
    t.res = { s.res with done := t.res.done, ovr := t.res.ovr }

/-- No cancellation: in a step of `HOSTCMD` while a transmission runs, the transmit registers and the payload stay
as they are, whatever the command (R192, R202 to R204). -/
def Obligations.NoCommandStopsATransmission : Prop :=
  ∀ s t : State, s.env.slot = .host → s.input.rst = false → s.tx.phase ≠ .idle → step s = .next t →
    t.tx = s.tx ∧ ∀ i, t.mem.readTxbuf i = s.mem.readTxbuf i

/-- `SEND`'s loading: `TXCLR` and then one `TXPUSH` a byte, from an idle transmitter with room for them, load exactly
these bytes, and the frame to be sent is theirs (R104, R180, R202, R203). -/
def Obligations.ClearAndPushesLoadThePayload : Prop :=
  ∀ (s : State) (bs : List Byte), s.mem.wf → s.tx.phase = .idle → bs.length ≤ s.cfg.txbufCap →
    ∃ t, bs.foldl (fun o b => match o with | .next u => exec (.txpush b) u | x => x) (exec (.txclr 0) s) = .next t ∧
      t.plain = bs ∧ t.tx.len = bs.length ∧ t.tx.phase = .idle ∧ t.frame = frameOf s.cfg bs ∧
      t.cfg = s.cfg ∧ t.rx = s.rx ∧ t.res = s.res ∧ t.cmdErr = s.cmdErr

/-! ## Counting, assembling, the cipher and the frame -/

/-- `CNT(d, u)` is the table of rule R112, is 3 for `u = 0`, and otherwise is `d / u` rounded, ties up, clipped
at 3. -/
def Obligations.CountRoundsHalfUpClippedAtThree : Prop :=
  ∀ d u : Nat,
    (2 * d < u → cnt d u = 0) ∧ (u ≤ 2 * d → 2 * d < 3 * u → cnt d u = 1) ∧
    (3 * u ≤ 2 * d → 2 * d < 5 * u → cnt d u = 2) ∧ (5 * u ≤ 2 * d → cnt d u = 3) ∧ cnt d 0 = 3 ∧
    (0 < u → cnt d u = min 3 ((2 * d + u) / (2 * u)))

/-- `PUSHBIT` does what rule R140 says to `SKIP`, `SHREG`, `BITCNT`, `RXCNT` and `RXBUF`, and nothing else: a full
buffer drops the byte silently. -/
def Obligations.PushBitFollowsTheRule : Prop :=
  ∀ (b : Bool) (s : State), s.mem.wf → BitPushed b s (pushBit b s) ∧ SameOutsideReceiver s (pushBit b s) ∧
    (∀ k, (pushBit b s).mem.readCw k = s.mem.readCw k) ∧
    (pushBit b s).rx =
      { s.rx with
        skip := (pushBit b s).rx.skip, shreg := (pushBit b s).rx.shreg, bitcnt := (pushBit b s).rx.bitcnt
        rxcnt := (pushBit b s).rx.rxcnt }

/-- The length law: from a clean message, with `r` bits received after the start bits, `RXCNT` is
`min(floor(r/8), RXBUF_CAP)` and `BITCNT` is `r mod 8` (R142, R143, R145). -/
def Obligations.AssemblerLengthLaw : Prop :=
  ∀ (s : State) (bs : List Bool), s.rx.skip = s.cfg.rxStartBits → s.rx.rxcnt = 0 → s.rx.bitcnt = 0 →
    (pushBits bs s).rx.rxcnt = min ((bs.length - s.cfg.rxStartBits) / 8) s.cfg.rxbufCap ∧
    (pushBits bs s).rx.bitcnt.toNat = (bs.length - s.cfg.rxStartBits) % 8 ∧
    (pushBits bs s).rx.skip = s.cfg.rxStartBits - bs.length

/-- The bits of a byte sequence, in line order, assemble to the sequence itself (R66, R67, R140). -/
def Obligations.LineBitsAssembleToTheirBytes : Prop :=
  ∀ (s : State) (bs : List Byte), s.mem.wf → s.rx.skip = 0 → s.rx.bitcnt = 0 → s.rx.rxcnt = 0 →
    bs.length ≤ s.cfg.rxbufCap →
    (pushBits (bitsOf bs) s).rx.rxcnt = bs.length ∧ (pushBits (bitsOf bs) s).rx.bitcnt = 0 ∧
    ∀ i, i < bs.length → (pushBits (bitsOf bs) s).mem.readRxbuf i = bs.getD i 0

/-- Decryption of an encryption is the identity, for every payload and every key (R170, R172). -/
def Obligations.CipherRoundTrip : Prop :=
  ∀ (c : Config) (bs : List Byte), ciphAll c (ciphAll c bs) = bs ∧
    ∀ (b : Byte) (i : Nat), ciph c b i = b ^^^ keyByte c (i % 16) ∧ ciph c (ciph c b i) i = b

/-- The frame has `4 + LEN_BYTES + TXLEN + 1` bytes: the signature, a length field that a receiver reads back as the
payload's length, the encrypted payload, and a last byte that makes the exclusive or of the encrypted bytes and
itself zero (R84, R85, R86, R180, R181). -/
def Obligations.FrameLayout : Prop :=
  ∀ (c : Config) (p : List Byte), configOk c = true → p.length ≤ c.txbufCap →
    (frameOf c p).length = 4 + c.lenBytes.toNat + p.length + 1 ∧ (frameOf c p).take 4 = sig ∧
    ((frameOf c p).drop 4).take c.lenBytes.toNat = lenField c.lenBytes p.length ∧
    (lenField c.lenBytes p.length).foldl (fun n b => 256 * n + b.toNat) 0 = p.length ∧
    (∀ i, i < p.length → (frameOf c p).getD (4 + c.lenBytes.toNat + i) 0 = ciph c (p.getD i 0) i) ∧
    xorFold ((frameOf c p).drop (4 + c.lenBytes.toNat)) = 0

/-! ## Finalization -/

/-- `MINIMA()`: for each level the result is a lower bound of the eligible intervals, is at most `RX_END_PERIOD`,
and is one of the two (R151). -/
def Obligations.MinimaAreTheShortestEligible : Prop :=
  ∀ (s : State) (l : Level), windowMin s l ≤ s.cfg.rxEndPeriod ∧
    (∀ k, 2 ≤ k → k + 3 ≤ s.rx.cwcnt → (s.mem.readCw k).level = l → windowMin s l ≤ (s.mem.readCw k).dur) ∧
    (windowMin s l = s.cfg.rxEndPeriod ∨
      ∃ k, 2 ≤ k ∧ k + 3 ≤ s.rx.cwcnt ∧ (s.mem.readCw k).level = l ∧ (s.mem.readCw k).dur = windowMin s l)

/-- A message of fewer than 6 events is `BadTiming` with `NOMIN`, in both decode modes (R151, R152). -/
def Obligations.ShortMessageIsBadTiming : Prop :=
  ∀ (s : State) (low : BitVec 8), s.rx.cwcnt < 6 → ∃ t, exec (.gate low) s = .next t ∧
    t.res.stat = .badTiming ∧ t.res.cause.getLsbD 0 = true

/-- The window decode of `MIN` mode, each event against the minimum of its own level: the events of count 1 or 2 push
their bit, in order, a count of 2 being a 1, and any event of another count sets `BAD` and pushes nothing; so a window
of valid events is pushed as one bit an event (R122, R153). `GATE` judges the state it leaves exactly in `MIN` mode
with the timing causes clear, and otherwise the state before it (R150). -/
def Obligations.MinModeReadsTheWindow : Prop :=
  ∀ (s : State) (lo hi : Nat) (count : Nat → Nat),
    (∀ k, k < s.rx.cwcnt →
      count k = cnt (s.mem.readCw k).dur (if (s.mem.readCw k).level then hi else lo)) →
    (∃ t, t = pushBits
        (((List.range s.rx.cwcnt).filter fun k => count k == 1 || count k == 2).map fun k => count k == 2) s ∧
      winDecode lo hi s = t.setRx { t.rx with
        bad := s.rx.bad || (List.range s.rx.cwcnt).any fun k => !(count k == 1 || count k == 2) }) ∧
    ((∀ k, k < s.rx.cwcnt → count k = 1 ∨ count k = 2) →
      winDecode lo hi s = pushBits ((List.range s.rx.cwcnt).map fun k => count k == 2) s) ∧
    (∀ k, k < s.rx.cwcnt → count k ≠ 1 → count k ≠ 2 → (winDecode lo hi s).rx.bad = true) ∧
    (∀ low : BitVec 8, ∃ t, exec (.gate low) s = .next t ∧
      (s.cfg.decodeMode = .min → timingClear s → lo = windowMin s false → hi = windowMin s true →
        t.res.nbytes = (winDecode lo hi s).rx.rxcnt ∧ t.res.cause.getLsbD 2 = (winDecode lo hi s).rx.bad ∧
        t.res.stat = verdict (winDecode lo hi s) t.res.cause) ∧
      (s.cfg.decodeMode = .cal ∨ ¬ timingClear s →
        t.res.nbytes = s.rx.rxcnt ∧ t.res.cause.getLsbD 2 = s.rx.bad ∧ t.res.stat = verdict s t.res.cause))

/-- `SUBREJ` cannot be set: every recorded interval is at least `RX_REJECT_PERIOD` long (R60, R152). -/
def Obligations.SubRejectIsNeverSet : Prop :=
  ∀ s : State, configOk s.cfg = true → MessageOk s →
    (timingCause s (windowMin s false) (windowMin s true)).getLsbD 1 = false

/-- One message, several faults: the first failing check in the order of rule R229 names the kind; the length the last
two checks use is the frame's length field, high byte first (R157). -/
def Obligations.FirstFailingCheckNamesTheKind : Prop :=
  ∀ (s : State) (cause : BitVec 5),
    (cause ≠ 0 → verdict s cause = .badTiming) ∧
    (s.rx.rxcnt < s.cfg.minRxBytes → verdict s 0 = .tooShort) ∧
    (s.cfg.minRxBytes ≤ s.rx.rxcnt → sigOk s = false → verdict s 0 = .signatureMismatch) ∧
    (s.cfg.minRxBytes ≤ s.rx.rxcnt → sigOk s = true → s.rx.rxcnt < payloadAt s.cfg →
      verdict s 0 = .lengthOverrun) ∧
    (payloadAt s.cfg ≤ s.rx.rxcnt → rxLenField s =
      (match s.cfg.lenBytes with
      | .one => (s.mem.readRxbuf 4).toNat
      | .two => 256 * (s.mem.readRxbuf 4).toNat + (s.mem.readRxbuf 5).toNat)) ∧
    (s.cfg.minRxBytes ≤ s.rx.rxcnt → sigOk s = true → payloadAt s.cfg ≤ s.rx.rxcnt →
      s.rx.rxcnt < payloadAt s.cfg + rxLenField s + 1 → verdict s 0 = .lengthOverrun) ∧
    (s.cfg.minRxBytes ≤ s.rx.rxcnt → sigOk s = true →
      payloadAt s.cfg + rxLenField s + 1 ≤ s.rx.rxcnt →
      verdict s 0 =
        if xorFold ((List.range (rxLenField s)).map fun i => s.mem.readRxbuf (payloadAt s.cfg + i)) =
          s.mem.readRxbuf (payloadAt s.cfg + rxLenField s)
        then .ok else .checksumMismatch)

/-- A byte sequence whose first 4 bytes differ from the signature in any position, or that has fewer than 4, is never
accepted, whatever else holds; with clean timing and enough bytes the kind is `SignatureMismatch`, otherwise an
earlier one; and these are the only sequences that fail the signature test (R156). -/
def Obligations.WrongSignatureIsAlwaysRejected : Prop :=
  ∀ s : State,
    (∀ i, i < 4 → (s.rx.rxcnt ≤ i ∨ s.mem.readRxbuf i ≠ sig.getD i 0) →
      (∀ cause, verdict s cause = .badTiming ∨ verdict s cause = .tooShort ∨
        verdict s cause = .signatureMismatch) ∧ (s.cfg.minRxBytes ≤ s.rx.rxcnt → verdict s 0 = .signatureMismatch)) ∧
    (sigOk s = true ↔ 4 ≤ s.rx.rxcnt ∧ s.mem.readRxbuf 0 = 0x63 ∧ s.mem.readRxbuf 1 = 0xF9 ∧
      s.mem.readRxbuf 2 = 0x5C ∧ s.mem.readRxbuf 3 = 0x1B)

/-- Changing any single payload byte of an accepted frame causes rejection with `ChecksumMismatch` (R159). -/
def Obligations.SinglePayloadByteChangeIsRejected : Prop :=
  ∀ (s t : State) (k : Nat), t.cfg = s.cfg → t.rx.rxcnt = s.rx.rxcnt → verdict s 0 = .ok →
    payloadAt s.cfg ≤ k → k < payloadAt s.cfg + rxLenField s →
    t.mem.readRxbuf k ≠ s.mem.readRxbuf k → (∀ i, i ≠ k → t.mem.readRxbuf i = s.mem.readRxbuf i) →
    verdict t 0 = .checksumMismatch

/-- A captured frame is delivered, in both decode modes: with clean timing, when the bytes the framer sees (in `MIN`
mode those of the window decode) begin with the frame of a payload under the receiver's own key, whatever follows it,
the gate posts `OK`, the payload's length, and the payload byte for byte on the read port (R150, R153, R157 to R161,
R163). -/
def Obligations.CapturedFrameIsDelivered : Prop :=
  ∀ (s : State) (p : List Byte) (low : BitVec 8), configOk s.cfg = true → s.mem.wf →
    p.length < 2 ^ (8 * s.cfg.lenBytes.toNat) →
    (frameOf s.cfg p).length ≤ (framerView s).rx.rxcnt → s.cfg.minRxBytes ≤ (framerView s).rx.rxcnt →
    (∀ i, i < (frameOf s.cfg p).length → (framerView s).mem.readRxbuf i = (frameOf s.cfg p).getD i 0) →
    (framerView s).rx.bad = false → timingClear s →
    ∃ t, exec (.gate low) s = .next t ∧ t.res.stat = .ok ∧ t.res.cause = 0 ∧ t.res.len = p.length ∧
      t.res.nbytes = (framerView s).rx.rxcnt ∧
      ∀ a : BitVec 16, rdData t a = p.getD a.toNat 0

/-! ## The host's view -/

/-- The output ports: each shows its register, `rx_stat` by the codes of rule R220, of which 7 is never produced; and
the read port shows `RXPAY[rd_addr]` below `RXLEN`, else `0x00` (R9, R71, R208, R220). The last clause on a state, that
`State.outputs` takes the `rd_addr` of the tick the state stands in, in the middle of a tick too, is the model's choice
and not the spec's (log entries 2 and 14). -/
def Obligations.ReadPortHidesTheRest : Prop :=
  (∀ (s : State) (a : BitVec 16),
    (a.toNat < s.res.len → rdData s a = s.mem.readRxpay a.toNat) ∧ (s.res.len ≤ a.toNat → rdData s a = 0) ∧
    (outputsAt s a).rdData = rdData s a ∧ (outputsAt s a).txOut = s.tx.level ∧
    ((outputsAt s a).txBusy = true ↔ s.tx.phase ≠ .idle) ∧
    (outputsAt s a).rxDone = s.res.done ∧ (outputsAt s a).rxOvr = s.res.ovr ∧ (outputsAt s a).cmdErr = s.cmdErr ∧
    (outputsAt s a).rxStat = s.res.stat.code ∧ (outputsAt s a).rxCause = s.res.cause ∧
    (outputsAt s a).rxLen = s.res.len ∧ (outputsAt s a).rxNbytes = s.res.nbytes ∧
    (outputsAt s a).minLow = s.res.minLow ∧ (outputsAt s a).minHigh = s.res.minHigh ∧
    s.outputs = outputsAt s s.input.rdAddr) ∧
  RxStatus.none.code = 0 ∧ RxStatus.ok.code = 1 ∧ RxStatus.badTiming.code = 2 ∧ RxStatus.tooShort.code = 3 ∧
  RxStatus.signatureMismatch.code = 4 ∧ RxStatus.lengthOverrun.code = 5 ∧ RxStatus.checksumMismatch.code = 6 ∧
  ∀ st : RxStatus, st.code ≠ 7

/-- The result registers and the delivered payload change only in a step that runs `GATE`, or `RXACK` (which changes
`RXDONE` and `RXOVR` alone), or with `rst = 1` (R70, R75). -/
def Obligations.ResultsChangeOnlyAtTheGate : Prop :=
  ∀ s t : State, step s = .next t → s.input.rst = false →
    (∀ w i, fetchWord s = some w → decode w = .ok i → i.isGate = false) →
    (∀ a, t.mem.readRxpay a = s.mem.readRxpay a) ∧
    t.res = { s.res with done := t.res.done, ovr := t.res.ovr } ∧
    ((∀ w arg, fetchWord s = some w → decode w ≠ .ok (.rxack arg)) → t.res = s.res)

/-- `RXACK` in the tick in which the silence gate fires: the new result is not lost and is not marked overwritten
(R205, R230). -/
def Obligations.AcknowledgeDoesNotLoseANewResult : Prop :=
  ∀ (s : State) (arg : Byte), s.input.cmdValid = true → s.input.cmd = commandWord 0x4 arg →
    s.rx.phase ≠ .idle → s.cfg.rxEndPeriod < s.diff →
    (tick s).res.done = true ∧ (tick s).res.ovr = false

/-- Buffer entries at or beyond the counts are unobservable: two states that differ at most there show the same
outputs and step to states that differ at most there (R35, R43, R54, U32; log entry 5). -/
def Obligations.HiddenEntriesAreUnobservable : Prop :=
  ∀ s t : State, s.mem.wf → t.mem.wf → SameVisible s t →
    (∀ a, outputsAt s a = outputsAt t a) ∧
    ∀ s', step s = .next s' → ∃ t', step t = .next t' ∧ SameVisible s' t'

/-! ## The receiver over time -/

/-- The block measures intervals exactly: with a message open and a transition just accepted, a level held for `d`
ticks within the thresholds leaves the receiver waiting, and the change in the `d`-th tick is accepted with
`diff = d` and recorded so (R113, R125). -/
def Obligations.IntervalsAreMeasuredToTheTick : Prop :=
  ∀ (s : State) (d : Nat), configOk s.cfg = true → s.mem.wf → s.rx.phase ≠ .idle → s.rx.elapsed = 0 →
    1 ≤ d → s.cfg.rxRejectPeriod ≤ d → d ≤ s.cfg.rxEndPeriod →
    rxFeed (List.replicate (d - 1) s.rx.level) s = s.setRx { s.rx with elapsed := d - 1 } ∧
    (let t := rxFeed (List.replicate (d - 1) s.rx.level ++ [!s.rx.level]) s
     t.rx.elapsed = 0 ∧ t.rx.level = !s.rx.level ∧ t.rx.phase = .data ∧
     (s.rx.cwcnt < s.cfg.cwCap →
       t.rx.cwcnt = s.rx.cwcnt + 1 ∧ t.mem.readCw s.rx.cwcnt = ⟨s.rx.cwcnt, s.rx.level, d⟩))

/-- The silence gate fires in the tick in which `diff` first equals `RX_END_PERIOD + 1`, and not before: until then
a held level only counts time, then the message ends and a result is waiting (R111, R125). -/
def Obligations.GateFiresAfterTheSilence : Prop :=
  ∀ s : State, configOk s.cfg = true → s.rx.phase ≠ .idle → s.rx.elapsed = 0 →
    (∀ k, k ≤ s.cfg.rxEndPeriod →
      rxFeed (List.replicate k s.rx.level) s = s.setRx { s.rx with elapsed := k }) ∧
    (let t := rxFeed (List.replicate (s.cfg.rxEndPeriod + 1) s.rx.level) s
     t.rx.phase = .idle ∧ t.res.done = true ∧ t.res.stat ≠ .none ∧ t.rx.elapsed = s.cfg.rxEndPeriod + 1)

/-- Debounce: a change that comes too early leaves no trace but the time while `diff < RX_REJECT_PERIOD`, and if it
lasts it is accepted in the first tick with `diff = RX_REJECT_PERIOD` (R115, R124, R252). -/
def Obligations.EarlyChangeIsAcceptedLate : Prop :=
  ∀ s : State, configOk s.cfg = true → s.rx.elapsed < s.cfg.rxRejectPeriod →
    (∀ k, s.rx.elapsed + k < s.cfg.rxRejectPeriod →
      rxFeed (List.replicate k (!s.rx.level)) s = s.setRx { s.rx with elapsed := s.rx.elapsed + k }) ∧
    (let t := rxFeed (List.replicate (s.cfg.rxRejectPeriod - s.rx.elapsed) (!s.rx.level)) s
     t.rx.level = !s.rx.level ∧ t.rx.elapsed = 0 ∧ t.rx.phase = (if s.rx.phase = .idle then .start else .data))

/-- A frame on the line is received: a receiver in `CAL` mode, idle at level 0, fed the wave of the frame of any
payload under its own key, with a pulse and a unit within the tolerance of rule R261 and the thresholds of rule R264,
and then the silence, posts `OK` and shows the payload on the read port (R80, R81, R163, R261 to R264). -/
def Obligations.WaveOfAFrameIsReceived : Prop :=
  ∀ (s : State) (p : List Byte) (pulse unit : Nat), configOk s.cfg = true → s.mem.wf → MessageOk s →
    s.cfg.decodeMode = .cal → s.cfg.rxStartBits = 0 →
    s.rx.phase = .idle → s.rx.level = false → s.cfg.rxRejectPeriod ≤ s.diff →
    p.length < 2 ^ (8 * s.cfg.lenBytes.toNat) →
    (frameOf s.cfg p).length ≤ s.cfg.rxbufCap → 8 * (frameOf s.cfg p).length + 1 ≤ s.cfg.cwCap →
    s.cfg.minRxBytes ≤ (frameOf s.cfg p).length →
    1 ≤ unit → s.cfg.rxRejectPeriod ≤ unit → 2 * unit ≤ s.cfg.rxEndPeriod →
    1 ≤ pulse → s.cfg.rxRejectPeriod ≤ pulse → pulse ≤ s.cfg.rxEndPeriod →
    4 * unit < 5 * (9 * pulse / 10) → 3 * (9 * pulse / 10) ≤ 4 * unit →
    (let t := rxFeed (levelsOf (waveRuns pulse unit (frameOf s.cfg p)) ++
        List.replicate (s.cfg.rxEndPeriod + 2) false) s
     t.res.stat = .ok ∧ t.res.len = p.length ∧ t.res.nbytes = (frameOf s.cfg p).length ∧ t.res.minLow = unit ∧
     t.res.minHigh = unit ∧ t.res.done = true ∧ t.rx.phase = .idle ∧
     ∀ a : BitVec 16, rdData t a = p.getD a.toNat 0)

/-- A frame on the line is received in `MIN` mode too: with one start bit discarded, a start pulse that reads as one
bit, and the thresholds of rule R264, the wave of the frame of any payload and then the silence posts `OK`, with both
minima at the unit, and shows the payload on the read port (R80, R81, R153, R262 to R264). -/
def Obligations.WaveOfAFrameIsReceivedInMinMode : Prop :=
  ∀ (s : State) (p : List Byte) (pulse unit : Nat), configOk s.cfg = true → s.mem.wf → MessageOk s →
    s.cfg.decodeMode = .min → s.cfg.rxStartBits = 1 →
    s.rx.phase = .idle → s.rx.level = false → s.cfg.rxRejectPeriod ≤ s.diff →
    p.length < 2 ^ (8 * s.cfg.lenBytes.toNat) →
    (frameOf s.cfg p).length ≤ s.cfg.rxbufCap → 8 * (frameOf s.cfg p).length + 1 ≤ s.cfg.cwCap →
    s.cfg.minRxBytes ≤ (frameOf s.cfg p).length →
    1 ≤ unit → s.cfg.rxRejectPeriod ≤ unit → 2 * unit ≤ s.cfg.rxEndPeriod →
    s.cfg.rxRejectPeriod ≤ pulse → pulse ≤ s.cfg.rxEndPeriod →
    unit ≤ 2 * pulse → 2 * pulse < 5 * unit →
    (let t := rxFeed (levelsOf (waveRuns pulse unit (frameOf s.cfg p)) ++
        List.replicate (s.cfg.rxEndPeriod + 2) false) s
     t.res.stat = .ok ∧ t.res.len = p.length ∧ t.res.nbytes = (frameOf s.cfg p).length ∧ t.res.minLow = unit ∧
     t.res.minHigh = unit ∧ t.res.done = true ∧ t.rx.phase = .idle ∧
     ∀ a : BitVec 16, rdData t a = p.getD a.toNat 0)

/-! ## The transmitter over time -/

/-- A transmission accepted in an idle transmitter puts exactly the wave of its frame on `tx_out`, then the end
silence, tick for tick; `tx_busy` is 1 throughout and 0 right after (R80, R81, R183 to R191). -/
def Obligations.TransmissionIsTheWaveOfItsFrame : Prop :=
  ∀ s : State, configOk s.cfg = true → s.tx.phase = .idle →
    (let wave := levelsOf (waveRuns (startPulse s.cfg) s.cfg.txUnitPeriod s.frame) ++
        List.replicate s.cfg.txEndPeriod false
     wave.length = startPulse s.cfg +
        s.cfg.txUnitPeriod * (8 * s.flen + (bitsOf s.frame).count true) + s.cfg.txEndPeriod ∧
     (∀ k, k < wave.length → (txRun k (startTx s)).tx.level = wave.getD k false ∧
        txBusy (txRun k (startTx s)) = true) ∧
     txBusy (txRun wave.length (startTx s)) = false ∧ (txRun wave.length (startTx s)).tx.level = false)

/-- The frame in flight cannot be changed: while a transmission runs, no step outside reset changes a byte of it
(R74). -/
def Obligations.FrameInFlightIsConstant : Prop :=
  ∀ s t : State, s.input.rst = false → s.tx.phase ≠ .idle → step s = .next t →
    t.frame = s.frame ∧ t.flen = s.flen
end

