-- ==== Sys2Proof/Laws/Buffers.lean ====
section
/-!
SUPPORT. Reading after writing in a buffer, and the canonical form kept by every write.
-/

namespace Sys2Proof.Machine

section Reading

variable {α : Type} {d : α}

@[simp] theorem bufRead_nil (i : Nat) : bufRead d [] i = d := rfl

theorem bufRead_cons (k : Nat) (v : α) (t : List (Nat × α)) (i : Nat) :
    bufRead d ((k, v) :: t) i = if k = i then v else bufRead d t i := rfl

/-- An index below every listed one reads as an unlisted index. -/
theorem bufRead_below (l : List (Nat × α)) (i : Nat) (h : ∀ p ∈ l, i < p.1) : bufRead d l i = d := by
  induction l with
  | nil => rfl
  | cons p t ih =>
    obtain ⟨k, v⟩ := p
    have hk : i < k := h (k, v) (List.mem_cons_self ..)
    rw [bufRead_cons, if_neg (by omega)]
    exact ih fun q hq => h q (List.mem_cons_of_mem _ hq)

end Reading

section Writing

variable {α : Type} [DecidableEq α] {d : α}

/-- A write leaves every other index alone, in any list. -/
theorem bufRead_write_other (l : List (Nat × α)) {i j : Nat} (v : α) (h : j ≠ i) :
    bufRead d (bufWrite d l i v) j = bufRead d l j := by
  induction l with
  | nil => by_cases hv : v = d <;> simp [bufWrite, bufRead, hv, h.symm]
  | cons p t ih =>
    obtain ⟨k, w⟩ := p
    simp only [bufWrite]
    split_ifs with h1 h2 h3 h4
    · rfl
    · simp [bufRead, h.symm]
    · simp [bufRead, ← h3, h.symm]
    · simp [bufRead, ← h3, h.symm]
    · simp [bufRead, ih]

/-- In a canonical buffer a read after a write gives the value written. -/
theorem bufRead_write_same (l : List (Nat × α)) (i : Nat) (v : α) (h : BufWf d l) :
    bufRead d (bufWrite d l i v) i = v := by
  induction l with
  | nil => by_cases hv : v = d <;> simp [bufWrite, bufRead, hv]
  | cons p t ih =>
    obtain ⟨k, w⟩ := p
    have hp := List.pairwise_cons.mp h.1
    have ht : BufWf d t := ⟨hp.2, fun q hq => h.2 q (List.mem_cons_of_mem _ hq)⟩
    simp only [bufWrite]
    split_ifs with h1 h2 h3 h4
    · rw [h2]
      refine bufRead_below _ _ fun q hq => ?_
      rcases List.mem_cons.mp hq with rfl | hq
      · exact h1
      · exact lt_trans h1 (hp.1 q hq)
    · simp [bufRead]
    · rw [h4, h3]
      exact bufRead_below _ _ fun q hq => hp.1 q hq
    · simp [bufRead]
    · rw [bufRead_cons, if_neg (by omega), ih ht]

/-- Every index a write leaves listed was listed before or is the one written. -/
theorem mem_bufWrite (l : List (Nat × α)) (i : Nat) (v : α) {p : Nat × α} (h : p ∈ bufWrite d l i v) :
    p ∈ l ∨ (p = (i, v) ∧ v ≠ d) := by
  induction l with
  | nil =>
    simp only [bufWrite] at h
    split_ifs at h with hv
    · cases h
    · exact .inr ⟨List.mem_singleton.mp h, hv⟩
  | cons q t ih =>
    obtain ⟨k, w⟩ := q
    simp only [bufWrite] at h
    split_ifs at h with h1 h2 h3 h4
    · exact .inl h
    · rcases List.mem_cons.mp h with rfl | h
      · exact .inr ⟨rfl, h2⟩
      · exact .inl h
    · exact .inl (List.mem_cons_of_mem _ h)
    · rcases List.mem_cons.mp h with rfl | h
      · exact .inr ⟨rfl, h4⟩
      · exact .inl (List.mem_cons_of_mem _ h)
    · rcases List.mem_cons.mp h with rfl | h
      · exact .inl (List.mem_cons_self ..)
      · rcases ih h with h | h
        · exact .inl (List.mem_cons_of_mem _ h)
        · exact .inr h

/-- Every write keeps the canonical form. -/
theorem bufWrite_wf (l : List (Nat × α)) (i : Nat) (v : α) (h : BufWf d l) : BufWf d (bufWrite d l i v) := by
  refine ⟨?_, ?_⟩
  · induction l with
    | nil => by_cases hv : v = d <;> simp [bufWrite, hv]
    | cons p t ih =>
      obtain ⟨k, w⟩ := p
      have hp := List.pairwise_cons.mp h.1
      have ht : BufWf d t := ⟨hp.2, fun q hq => h.2 q (List.mem_cons_of_mem _ hq)⟩
      simp only [bufWrite]
      split_ifs with h1 h2 h3 h4
      · exact h.1
      · refine List.pairwise_cons.mpr ⟨fun q hq => ?_, h.1⟩
        rcases List.mem_cons.mp hq with rfl | hq
        · exact h1
        · exact lt_trans h1 (hp.1 q hq)
      · exact hp.2
      · exact List.pairwise_cons.mpr ⟨fun q hq => h3 ▸ hp.1 q hq, hp.2⟩
      · refine List.pairwise_cons.mpr ⟨fun q hq => ?_, ih ht⟩
        rcases mem_bufWrite t i v hq with hq | ⟨rfl, -⟩
        · exact hp.1 q hq
        · show k < i
          omega
  · intro p hp
    rcases mem_bufWrite l i v hp with hp | ⟨rfl, hv⟩
    · exact h.2 p hp
    · exact hv

end Writing

theorem memory_empty_wf : Memory.empty.wf := by decide

/-- Every memory operation keeps the canonical form. -/
theorem writeCw_wf {m : Memory} (k : Nat) (e : Event) (h : m.wf) : (m.writeCw k e).wf :=
  ⟨bufWrite_wf _ _ _ h.1, h.2⟩

theorem writeRxbuf_wf {m : Memory} (i : Nat) (b : Byte) (h : m.wf) : (m.writeRxbuf i b).wf :=
  ⟨h.1, bufWrite_wf _ _ _ h.2.1, h.2.2⟩

theorem writeRxpay_wf {m : Memory} (i : Nat) (b : Byte) (h : m.wf) : (m.writeRxpay i b).wf :=
  ⟨h.1, h.2.1, bufWrite_wf _ _ _ h.2.2.1, h.2.2.2⟩

theorem writeTxbuf_wf {m : Memory} (i : Nat) (b : Byte) (h : m.wf) : (m.writeTxbuf i b).wf :=
  ⟨h.1, h.2.1, h.2.2.1, bufWrite_wf _ _ _ h.2.2.2⟩

theorem readCw_writeCw {m : Memory} (k : Nat) (e : Event) (h : m.wf) : (m.writeCw k e).readCw k = e :=
  bufRead_write_same _ _ _ h.1

theorem readRxbuf_writeRxbuf {m : Memory} (i : Nat) (b : Byte) (h : m.wf) : (m.writeRxbuf i b).readRxbuf i = b :=
  bufRead_write_same _ _ _ h.2.1

theorem readRxpay_writeRxpay {m : Memory} (i : Nat) (b : Byte) (h : m.wf) : (m.writeRxpay i b).readRxpay i = b :=
  bufRead_write_same _ _ _ h.2.2.1

theorem readTxbuf_writeTxbuf {m : Memory} (i : Nat) (b : Byte) (h : m.wf) : (m.writeTxbuf i b).readTxbuf i = b :=
  bufRead_write_same _ _ _ h.2.2.2

theorem readCw_writeCw_other (m : Memory) {k j : Nat} (e : Event) (h : j ≠ k) :
    (m.writeCw k e).readCw j = m.readCw j := bufRead_write_other _ _ h

theorem readRxbuf_writeRxbuf_other (m : Memory) {i j : Nat} (b : Byte) (h : j ≠ i) :
    (m.writeRxbuf i b).readRxbuf j = m.readRxbuf j := bufRead_write_other _ _ h

theorem readRxpay_writeRxpay_other (m : Memory) {i j : Nat} (b : Byte) (h : j ≠ i) :
    (m.writeRxpay i b).readRxpay j = m.readRxpay j := bufRead_write_other _ _ h

theorem readTxbuf_writeTxbuf_other (m : Memory) {i j : Nat} (b : Byte) (h : j ≠ i) :
    (m.writeTxbuf i b).readTxbuf j = m.readTxbuf j := bufRead_write_other _ _ h

@[simp] theorem writeCw_rxbuf (m : Memory) (k : Nat) (e : Event) : (m.writeCw k e).rxbuf = m.rxbuf := rfl
@[simp] theorem writeCw_rxpay (m : Memory) (k : Nat) (e : Event) : (m.writeCw k e).rxpay = m.rxpay := rfl
@[simp] theorem writeCw_txbuf (m : Memory) (k : Nat) (e : Event) : (m.writeCw k e).txbuf = m.txbuf := rfl
@[simp] theorem writeRxbuf_cw (m : Memory) (i : Nat) (b : Byte) : (m.writeRxbuf i b).cw = m.cw := rfl
@[simp] theorem writeRxbuf_rxpay (m : Memory) (i : Nat) (b : Byte) : (m.writeRxbuf i b).rxpay = m.rxpay := rfl
@[simp] theorem writeRxbuf_txbuf (m : Memory) (i : Nat) (b : Byte) : (m.writeRxbuf i b).txbuf = m.txbuf := rfl
@[simp] theorem writeRxpay_cw (m : Memory) (i : Nat) (b : Byte) : (m.writeRxpay i b).cw = m.cw := rfl
@[simp] theorem writeRxpay_rxbuf (m : Memory) (i : Nat) (b : Byte) : (m.writeRxpay i b).rxbuf = m.rxbuf := rfl
@[simp] theorem writeRxpay_txbuf (m : Memory) (i : Nat) (b : Byte) : (m.writeRxpay i b).txbuf = m.txbuf := rfl
@[simp] theorem writeTxbuf_cw (m : Memory) (i : Nat) (b : Byte) : (m.writeTxbuf i b).cw = m.cw := rfl
@[simp] theorem writeTxbuf_rxbuf (m : Memory) (i : Nat) (b : Byte) : (m.writeTxbuf i b).rxbuf = m.rxbuf := rfl
@[simp] theorem writeTxbuf_rxpay (m : Memory) (i : Nat) (b : Byte) : (m.writeTxbuf i b).rxpay = m.rxpay := rfl

@[simp] theorem writeCw_readRxbuf (m : Memory) (k : Nat) (e : Event) (i : Nat) :
    (m.writeCw k e).readRxbuf i = m.readRxbuf i := rfl
@[simp] theorem writeCw_readRxpay (m : Memory) (k : Nat) (e : Event) (i : Nat) :
    (m.writeCw k e).readRxpay i = m.readRxpay i := rfl
@[simp] theorem writeCw_readTxbuf (m : Memory) (k : Nat) (e : Event) (i : Nat) :
    (m.writeCw k e).readTxbuf i = m.readTxbuf i := rfl
@[simp] theorem writeRxbuf_readCw (m : Memory) (j : Nat) (b : Byte) (k : Nat) :
    (m.writeRxbuf j b).readCw k = m.readCw k := rfl
@[simp] theorem writeRxbuf_readRxpay (m : Memory) (j : Nat) (b : Byte) (i : Nat) :
    (m.writeRxbuf j b).readRxpay i = m.readRxpay i := rfl
@[simp] theorem writeRxbuf_readTxbuf (m : Memory) (j : Nat) (b : Byte) (i : Nat) :
    (m.writeRxbuf j b).readTxbuf i = m.readTxbuf i := rfl
@[simp] theorem writeRxpay_readCw (m : Memory) (j : Nat) (b : Byte) (k : Nat) :
    (m.writeRxpay j b).readCw k = m.readCw k := rfl
@[simp] theorem writeRxpay_readRxbuf (m : Memory) (j : Nat) (b : Byte) (i : Nat) :
    (m.writeRxpay j b).readRxbuf i = m.readRxbuf i := rfl
@[simp] theorem writeRxpay_readTxbuf (m : Memory) (j : Nat) (b : Byte) (i : Nat) :
    (m.writeRxpay j b).readTxbuf i = m.readTxbuf i := rfl
@[simp] theorem writeTxbuf_readCw (m : Memory) (j : Nat) (b : Byte) (k : Nat) :
    (m.writeTxbuf j b).readCw k = m.readCw k := rfl
@[simp] theorem writeTxbuf_readRxbuf (m : Memory) (j : Nat) (b : Byte) (i : Nat) :
    (m.writeTxbuf j b).readRxbuf i = m.readRxbuf i := rfl
@[simp] theorem writeTxbuf_readRxpay (m : Memory) (j : Nat) (b : Byte) (i : Nat) :
    (m.writeTxbuf j b).readRxpay i = m.readRxpay i := rfl

end Sys2Proof.Machine
end

