-- ==== Sys2Proof/Laws/State.lean ====
section
/-!
SUPPORT. One lemma per field for each named update of State, and for the reset values, so that no proof unfolds a
record update.
-/

namespace Sys2Proof.Machine

@[simp] theorem setRx_cfg (s : State) (r : RxPath) : (s.setRx r).cfg = s.cfg := rfl
@[simp] theorem setRx_rx (s : State) (r : RxPath) : (s.setRx r).rx = r := rfl
@[simp] theorem setRx_res (s : State) (r : RxPath) : (s.setRx r).res = s.res := rfl
@[simp] theorem setRx_tx (s : State) (r : RxPath) : (s.setRx r).tx = s.tx := rfl
@[simp] theorem setRx_cmdErr (s : State) (r : RxPath) : (s.setRx r).cmdErr = s.cmdErr := rfl
@[simp] theorem setRx_mem (s : State) (r : RxPath) : (s.setRx r).mem = s.mem := rfl
@[simp] theorem setRx_env (s : State) (r : RxPath) : (s.setRx r).env = s.env := rfl

@[simp] theorem setRes_cfg (s : State) (r : RxResult) : (s.setRes r).cfg = s.cfg := rfl
@[simp] theorem setRes_rx (s : State) (r : RxResult) : (s.setRes r).rx = s.rx := rfl
@[simp] theorem setRes_res (s : State) (r : RxResult) : (s.setRes r).res = r := rfl
@[simp] theorem setRes_tx (s : State) (r : RxResult) : (s.setRes r).tx = s.tx := rfl
@[simp] theorem setRes_cmdErr (s : State) (r : RxResult) : (s.setRes r).cmdErr = s.cmdErr := rfl
@[simp] theorem setRes_mem (s : State) (r : RxResult) : (s.setRes r).mem = s.mem := rfl
@[simp] theorem setRes_env (s : State) (r : RxResult) : (s.setRes r).env = s.env := rfl

@[simp] theorem setTx_cfg (s : State) (t : TxPath) : (s.setTx t).cfg = s.cfg := rfl
@[simp] theorem setTx_rx (s : State) (t : TxPath) : (s.setTx t).rx = s.rx := rfl
@[simp] theorem setTx_res (s : State) (t : TxPath) : (s.setTx t).res = s.res := rfl
@[simp] theorem setTx_tx (s : State) (t : TxPath) : (s.setTx t).tx = t := rfl
@[simp] theorem setTx_cmdErr (s : State) (t : TxPath) : (s.setTx t).cmdErr = s.cmdErr := rfl
@[simp] theorem setTx_mem (s : State) (t : TxPath) : (s.setTx t).mem = s.mem := rfl
@[simp] theorem setTx_env (s : State) (t : TxPath) : (s.setTx t).env = s.env := rfl

@[simp] theorem setCmdErr_cfg (s : State) (b : Bool) : (s.setCmdErr b).cfg = s.cfg := rfl
@[simp] theorem setCmdErr_rx (s : State) (b : Bool) : (s.setCmdErr b).rx = s.rx := rfl
@[simp] theorem setCmdErr_res (s : State) (b : Bool) : (s.setCmdErr b).res = s.res := rfl
@[simp] theorem setCmdErr_tx (s : State) (b : Bool) : (s.setCmdErr b).tx = s.tx := rfl
@[simp] theorem setCmdErr_cmdErr (s : State) (b : Bool) : (s.setCmdErr b).cmdErr = b := rfl
@[simp] theorem setCmdErr_mem (s : State) (b : Bool) : (s.setCmdErr b).mem = s.mem := rfl
@[simp] theorem setCmdErr_env (s : State) (b : Bool) : (s.setCmdErr b).env = s.env := rfl

@[simp] theorem setMem_cfg (s : State) (m : Memory) : (s.setMem m).cfg = s.cfg := rfl
@[simp] theorem setMem_rx (s : State) (m : Memory) : (s.setMem m).rx = s.rx := rfl
@[simp] theorem setMem_res (s : State) (m : Memory) : (s.setMem m).res = s.res := rfl
@[simp] theorem setMem_tx (s : State) (m : Memory) : (s.setMem m).tx = s.tx := rfl
@[simp] theorem setMem_cmdErr (s : State) (m : Memory) : (s.setMem m).cmdErr = s.cmdErr := rfl
@[simp] theorem setMem_mem (s : State) (m : Memory) : (s.setMem m).mem = m := rfl
@[simp] theorem setMem_env (s : State) (m : Memory) : (s.setMem m).env = s.env := rfl

@[simp] theorem setEnv_cfg (s : State) (e : Env) : (s.setEnv e).cfg = s.cfg := rfl
@[simp] theorem setEnv_rx (s : State) (e : Env) : (s.setEnv e).rx = s.rx := rfl
@[simp] theorem setEnv_res (s : State) (e : Env) : (s.setEnv e).res = s.res := rfl
@[simp] theorem setEnv_tx (s : State) (e : Env) : (s.setEnv e).tx = s.tx := rfl
@[simp] theorem setEnv_cmdErr (s : State) (e : Env) : (s.setEnv e).cmdErr = s.cmdErr := rfl
@[simp] theorem setEnv_mem (s : State) (e : Env) : (s.setEnv e).mem = s.mem := rfl
@[simp] theorem setEnv_env (s : State) (e : Env) : (s.setEnv e).env = e := rfl

@[simp] theorem resetWith_cfg (c : Config) : (State.resetWith c).cfg = c := rfl
@[simp] theorem resetWith_rx (c : Config) : (State.resetWith c).rx = RxPath.reset c := rfl
@[simp] theorem resetWith_res (c : Config) : (State.resetWith c).res = RxResult.reset c := rfl
@[simp] theorem resetWith_tx (c : Config) : (State.resetWith c).tx = TxPath.reset := rfl
@[simp] theorem resetWith_cmdErr (c : Config) : (State.resetWith c).cmdErr = false := rfl
@[simp] theorem resetWith_mem (c : Config) : (State.resetWith c).mem = Memory.empty := rfl
@[simp] theorem resetWith_env (c : Config) : (State.resetWith c).env = Env.reset := rfl

end Sys2Proof.Machine
end

