-- ==== Sys2Proof/Laws/Ops.lean ====
section
/-!
SUPPORT. What each shared operation can do, said once: the cases of RECORD, PUSHBIT and SYMBOL, the fields each
operation leaves alone, the canonical form kept, and the fields POST and CLEAR write.
-/

namespace Sys2Proof.Machine

/-- A field that every round of a fold leaves alone is left alone by the fold. -/
theorem foldl_keeps {σ α β : Type} (f : σ → α → σ) (p : σ → β) (h : ∀ t a, p (f t a) = p t) (l : List α) (s : σ) :
    p (l.foldl f s) = p s := by
  induction l generalizing s with
  | nil => rfl
  | cons a t ih => rw [List.foldl_cons, ih, h]

/-- A property that every round of a fold keeps is kept by the fold. -/
theorem foldl_preserves {σ α : Type} (f : σ → α → σ) (p : σ → Prop) (h : ∀ t a, p t → p (f t a)) (l : List α)
    (s : σ) (hs : p s) : p (l.foldl f s) := by
  induction l generalizing s with
  | nil => exact hs
  | cons a t ih => exact ih _ (h _ _ hs)

section Window

/-- `RECORD`: the event fits, or it is dropped and `CWOVF` set (R113). -/
theorem record_cases (l : Level) (d : Nat) (s : State) :
    (s.rx.cwcnt < s.cfg.cwCap ∧ record l d s =
      (s.setMem (s.mem.writeCw s.rx.cwcnt ⟨s.rx.cwcnt, l, d⟩)).setRx { s.rx with cwcnt := s.rx.cwcnt + 1 }) ∨
    (s.cfg.cwCap ≤ s.rx.cwcnt ∧ record l d s = s.setRx { s.rx with cwovf := true }) := by
  by_cases h : s.rx.cwcnt < s.cfg.cwCap
  · exact .inl ⟨h, if_pos h⟩
  · exact .inr ⟨Nat.le_of_not_lt h, if_neg h⟩

@[simp] theorem record_cfg (l : Level) (d : Nat) (s : State) : (record l d s).cfg = s.cfg := by
  unfold record; split <;> rfl
@[simp] theorem record_res (l : Level) (d : Nat) (s : State) : (record l d s).res = s.res := by
  unfold record; split <;> rfl
@[simp] theorem record_tx (l : Level) (d : Nat) (s : State) : (record l d s).tx = s.tx := by
  unfold record; split <;> rfl
@[simp] theorem record_cmdErr (l : Level) (d : Nat) (s : State) : (record l d s).cmdErr = s.cmdErr := by
  unfold record; split <;> rfl
@[simp] theorem record_env (l : Level) (d : Nat) (s : State) : (record l d s).env = s.env := by
  unfold record; split <;> rfl
@[simp] theorem record_phase (l : Level) (d : Nat) (s : State) : (record l d s).rx.phase = s.rx.phase := by
  unfold record; split <;> rfl
@[simp] theorem record_level (l : Level) (d : Nat) (s : State) : (record l d s).rx.level = s.rx.level := by
  unfold record; split <;> rfl
@[simp] theorem record_elapsed (l : Level) (d : Nat) (s : State) : (record l d s).rx.elapsed = s.rx.elapsed := by
  unfold record; split <;> rfl
@[simp] theorem record_unit (l : Level) (d : Nat) (s : State) : (record l d s).rx.unit = s.rx.unit := by
  unfold record; split <;> rfl
@[simp] theorem record_bad (l : Level) (d : Nat) (s : State) : (record l d s).rx.bad = s.rx.bad := by
  unfold record; split <;> rfl
@[simp] theorem record_shreg (l : Level) (d : Nat) (s : State) : (record l d s).rx.shreg = s.rx.shreg := by
  unfold record; split <;> rfl
@[simp] theorem record_bitcnt (l : Level) (d : Nat) (s : State) : (record l d s).rx.bitcnt = s.rx.bitcnt := by
  unfold record; split <;> rfl
@[simp] theorem record_rxcnt (l : Level) (d : Nat) (s : State) : (record l d s).rx.rxcnt = s.rx.rxcnt := by
  unfold record; split <;> rfl
@[simp] theorem record_skip (l : Level) (d : Nat) (s : State) : (record l d s).rx.skip = s.rx.skip := by
  unfold record; split <;> rfl
@[simp] theorem record_mem_rxbuf (l : Level) (d : Nat) (s : State) : (record l d s).mem.rxbuf = s.mem.rxbuf := by
  unfold record; split <;> rfl
@[simp] theorem record_mem_rxpay (l : Level) (d : Nat) (s : State) : (record l d s).mem.rxpay = s.mem.rxpay := by
  unfold record; split <;> rfl
@[simp] theorem record_mem_txbuf (l : Level) (d : Nat) (s : State) : (record l d s).mem.txbuf = s.mem.txbuf := by
  unfold record; split <;> rfl

theorem record_wf (l : Level) (d : Nat) {s : State} (h : s.mem.wf) : (record l d s).mem.wf := by
  rcases record_cases l d s with ⟨-, e⟩ | ⟨-, e⟩ <;> rw [e]
  · exact writeCw_wf _ _ h
  · exact h

end Window

section Assembler

/-- `PUSHBIT`: a start bit is discarded; or the eighth bit completes a byte, stored or dropped; or a bit is shifted in
(R140). -/
theorem pushBit_cases (b : Bool) (s : State) :
    (0 < s.rx.skip ∧ pushBit b s = s.setRx { s.rx with skip := s.rx.skip - 1 }) ∨
    (s.rx.skip = 0 ∧ s.rx.bitcnt = 7 ∧ s.rx.rxcnt < s.cfg.rxbufCap ∧ pushBit b s =
      (s.setMem (s.mem.writeRxbuf s.rx.rxcnt (shiftIn s.rx.shreg b))).setRx
        { s.rx with shreg := shiftIn s.rx.shreg b, bitcnt := 0, rxcnt := s.rx.rxcnt + 1 }) ∨
    (s.rx.skip = 0 ∧ s.rx.bitcnt = 7 ∧ s.cfg.rxbufCap ≤ s.rx.rxcnt ∧ pushBit b s =
      s.setRx { s.rx with shreg := shiftIn s.rx.shreg b, bitcnt := 0 }) ∨
    (s.rx.skip = 0 ∧ s.rx.bitcnt ≠ 7 ∧ pushBit b s =
      s.setRx { s.rx with shreg := shiftIn s.rx.shreg b, bitcnt := s.rx.bitcnt + 1 }) := by
  by_cases h : 0 < s.rx.skip
  · exact .inl ⟨h, if_pos h⟩
  have h0 : s.rx.skip = 0 := by omega
  by_cases h7 : s.rx.bitcnt = 7
  · by_cases hc : s.rx.rxcnt < s.cfg.rxbufCap
    · exact .inr (.inl ⟨h0, h7, hc, by simp only [pushBit, if_neg h, if_pos h7, if_pos hc]⟩)
    · exact .inr (.inr (.inl ⟨h0, h7, Nat.le_of_not_lt hc, by simp only [pushBit, if_neg h, if_pos h7, if_neg hc]⟩))
  · exact .inr (.inr (.inr ⟨h0, h7, by simp only [pushBit, if_neg h, if_neg h7]⟩))

@[simp] theorem pushBit_cfg (b : Bool) (s : State) : (pushBit b s).cfg = s.cfg := by
  rcases pushBit_cases b s with ⟨-, e⟩ | ⟨-, -, -, e⟩ | ⟨-, -, -, e⟩ | ⟨-, -, e⟩ <;> rw [e] <;> rfl
@[simp] theorem pushBit_res (b : Bool) (s : State) : (pushBit b s).res = s.res := by
  rcases pushBit_cases b s with ⟨-, e⟩ | ⟨-, -, -, e⟩ | ⟨-, -, -, e⟩ | ⟨-, -, e⟩ <;> rw [e] <;> rfl
@[simp] theorem pushBit_tx (b : Bool) (s : State) : (pushBit b s).tx = s.tx := by
  rcases pushBit_cases b s with ⟨-, e⟩ | ⟨-, -, -, e⟩ | ⟨-, -, -, e⟩ | ⟨-, -, e⟩ <;> rw [e] <;> rfl
@[simp] theorem pushBit_cmdErr (b : Bool) (s : State) : (pushBit b s).cmdErr = s.cmdErr := by
  rcases pushBit_cases b s with ⟨-, e⟩ | ⟨-, -, -, e⟩ | ⟨-, -, -, e⟩ | ⟨-, -, e⟩ <;> rw [e] <;> rfl
@[simp] theorem pushBit_env (b : Bool) (s : State) : (pushBit b s).env = s.env := by
  rcases pushBit_cases b s with ⟨-, e⟩ | ⟨-, -, -, e⟩ | ⟨-, -, -, e⟩ | ⟨-, -, e⟩ <;> rw [e] <;> rfl
@[simp] theorem pushBit_phase (b : Bool) (s : State) : (pushBit b s).rx.phase = s.rx.phase := by
  rcases pushBit_cases b s with ⟨-, e⟩ | ⟨-, -, -, e⟩ | ⟨-, -, -, e⟩ | ⟨-, -, e⟩ <;> rw [e] <;> rfl
@[simp] theorem pushBit_level (b : Bool) (s : State) : (pushBit b s).rx.level = s.rx.level := by
  rcases pushBit_cases b s with ⟨-, e⟩ | ⟨-, -, -, e⟩ | ⟨-, -, -, e⟩ | ⟨-, -, e⟩ <;> rw [e] <;> rfl
@[simp] theorem pushBit_elapsed (b : Bool) (s : State) : (pushBit b s).rx.elapsed = s.rx.elapsed := by
  rcases pushBit_cases b s with ⟨-, e⟩ | ⟨-, -, -, e⟩ | ⟨-, -, -, e⟩ | ⟨-, -, e⟩ <;> rw [e] <;> rfl
@[simp] theorem pushBit_unit (b : Bool) (s : State) : (pushBit b s).rx.unit = s.rx.unit := by
  rcases pushBit_cases b s with ⟨-, e⟩ | ⟨-, -, -, e⟩ | ⟨-, -, -, e⟩ | ⟨-, -, e⟩ <;> rw [e] <;> rfl
@[simp] theorem pushBit_bad (b : Bool) (s : State) : (pushBit b s).rx.bad = s.rx.bad := by
  rcases pushBit_cases b s with ⟨-, e⟩ | ⟨-, -, -, e⟩ | ⟨-, -, -, e⟩ | ⟨-, -, e⟩ <;> rw [e] <;> rfl
@[simp] theorem pushBit_cwovf (b : Bool) (s : State) : (pushBit b s).rx.cwovf = s.rx.cwovf := by
  rcases pushBit_cases b s with ⟨-, e⟩ | ⟨-, -, -, e⟩ | ⟨-, -, -, e⟩ | ⟨-, -, e⟩ <;> rw [e] <;> rfl
@[simp] theorem pushBit_cwcnt (b : Bool) (s : State) : (pushBit b s).rx.cwcnt = s.rx.cwcnt := by
  rcases pushBit_cases b s with ⟨-, e⟩ | ⟨-, -, -, e⟩ | ⟨-, -, -, e⟩ | ⟨-, -, e⟩ <;> rw [e] <;> rfl
@[simp] theorem pushBit_mem_cw (b : Bool) (s : State) : (pushBit b s).mem.cw = s.mem.cw := by
  rcases pushBit_cases b s with ⟨-, e⟩ | ⟨-, -, -, e⟩ | ⟨-, -, -, e⟩ | ⟨-, -, e⟩ <;> rw [e] <;> rfl
@[simp] theorem pushBit_mem_rxpay (b : Bool) (s : State) : (pushBit b s).mem.rxpay = s.mem.rxpay := by
  rcases pushBit_cases b s with ⟨-, e⟩ | ⟨-, -, -, e⟩ | ⟨-, -, -, e⟩ | ⟨-, -, e⟩ <;> rw [e] <;> rfl
@[simp] theorem pushBit_mem_txbuf (b : Bool) (s : State) : (pushBit b s).mem.txbuf = s.mem.txbuf := by
  rcases pushBit_cases b s with ⟨-, e⟩ | ⟨-, -, -, e⟩ | ⟨-, -, -, e⟩ | ⟨-, -, e⟩ <;> rw [e] <;> rfl

theorem pushBit_wf (b : Bool) {s : State} (h : s.mem.wf) : (pushBit b s).mem.wf := by
  rcases pushBit_cases b s with ⟨-, e⟩ | ⟨-, -, -, e⟩ | ⟨-, -, -, e⟩ | ⟨-, -, e⟩ <;> rw [e]
  · exact h
  · exact writeRxbuf_wf _ _ h
  · exact h
  · exact h

/-- `SYMBOL`: count 1 pushes a 0, count 2 pushes a 1, any other marks the message bad (R122). -/
theorem symbol_cases (d u : Nat) (s : State) :
    (cnt d u = 1 ∧ symbol d u s = pushBit false s) ∨ (cnt d u = 2 ∧ symbol d u s = pushBit true s) ∨
    (cnt d u ≠ 1 ∧ cnt d u ≠ 2 ∧ symbol d u s = markBad s) := by
  by_cases h1 : cnt d u = 1
  · exact .inl ⟨h1, if_pos h1⟩
  · by_cases h2 : cnt d u = 2
    · exact .inr (.inl ⟨h2, by rw [symbol, if_neg h1, if_pos h2]⟩)
    · exact .inr (.inr ⟨h1, h2, by rw [symbol, if_neg h1, if_neg h2]⟩)

@[simp] theorem symbol_cfg (d u : Nat) (s : State) : (symbol d u s).cfg = s.cfg := by
  rcases symbol_cases d u s with ⟨-, e⟩ | ⟨-, e⟩ | ⟨-, -, e⟩ <;> rw [e] <;> first | rfl | simp
@[simp] theorem symbol_res (d u : Nat) (s : State) : (symbol d u s).res = s.res := by
  rcases symbol_cases d u s with ⟨-, e⟩ | ⟨-, e⟩ | ⟨-, -, e⟩ <;> rw [e] <;> first | rfl | simp
@[simp] theorem symbol_tx (d u : Nat) (s : State) : (symbol d u s).tx = s.tx := by
  rcases symbol_cases d u s with ⟨-, e⟩ | ⟨-, e⟩ | ⟨-, -, e⟩ <;> rw [e] <;> first | rfl | simp
@[simp] theorem symbol_cmdErr (d u : Nat) (s : State) : (symbol d u s).cmdErr = s.cmdErr := by
  rcases symbol_cases d u s with ⟨-, e⟩ | ⟨-, e⟩ | ⟨-, -, e⟩ <;> rw [e] <;> first | rfl | simp
@[simp] theorem symbol_env (d u : Nat) (s : State) : (symbol d u s).env = s.env := by
  rcases symbol_cases d u s with ⟨-, e⟩ | ⟨-, e⟩ | ⟨-, -, e⟩ <;> rw [e] <;> first | rfl | simp
@[simp] theorem symbol_phase (d u : Nat) (s : State) : (symbol d u s).rx.phase = s.rx.phase := by
  rcases symbol_cases d u s with ⟨-, e⟩ | ⟨-, e⟩ | ⟨-, -, e⟩ <;> rw [e] <;> first | rfl | simp
@[simp] theorem symbol_level (d u : Nat) (s : State) : (symbol d u s).rx.level = s.rx.level := by
  rcases symbol_cases d u s with ⟨-, e⟩ | ⟨-, e⟩ | ⟨-, -, e⟩ <;> rw [e] <;> first | rfl | simp
@[simp] theorem symbol_elapsed (d u : Nat) (s : State) : (symbol d u s).rx.elapsed = s.rx.elapsed := by
  rcases symbol_cases d u s with ⟨-, e⟩ | ⟨-, e⟩ | ⟨-, -, e⟩ <;> rw [e] <;> first | rfl | simp
@[simp] theorem symbol_unit (d u : Nat) (s : State) : (symbol d u s).rx.unit = s.rx.unit := by
  rcases symbol_cases d u s with ⟨-, e⟩ | ⟨-, e⟩ | ⟨-, -, e⟩ <;> rw [e] <;> first | rfl | simp
@[simp] theorem symbol_cwovf (d u : Nat) (s : State) : (symbol d u s).rx.cwovf = s.rx.cwovf := by
  rcases symbol_cases d u s with ⟨-, e⟩ | ⟨-, e⟩ | ⟨-, -, e⟩ <;> rw [e] <;> first | rfl | simp
@[simp] theorem symbol_cwcnt (d u : Nat) (s : State) : (symbol d u s).rx.cwcnt = s.rx.cwcnt := by
  rcases symbol_cases d u s with ⟨-, e⟩ | ⟨-, e⟩ | ⟨-, -, e⟩ <;> rw [e] <;> first | rfl | simp
@[simp] theorem symbol_mem_cw (d u : Nat) (s : State) : (symbol d u s).mem.cw = s.mem.cw := by
  rcases symbol_cases d u s with ⟨-, e⟩ | ⟨-, e⟩ | ⟨-, -, e⟩ <;> rw [e] <;> first | rfl | simp
@[simp] theorem symbol_mem_rxpay (d u : Nat) (s : State) : (symbol d u s).mem.rxpay = s.mem.rxpay := by
  rcases symbol_cases d u s with ⟨-, e⟩ | ⟨-, e⟩ | ⟨-, -, e⟩ <;> rw [e] <;> first | rfl | simp
@[simp] theorem symbol_mem_txbuf (d u : Nat) (s : State) : (symbol d u s).mem.txbuf = s.mem.txbuf := by
  rcases symbol_cases d u s with ⟨-, e⟩ | ⟨-, e⟩ | ⟨-, -, e⟩ <;> rw [e] <;> first | rfl | simp

theorem symbol_wf (d u : Nat) {s : State} (h : s.mem.wf) : (symbol d u s).mem.wf := by
  rcases symbol_cases d u s with ⟨-, e⟩ | ⟨-, e⟩ | ⟨-, -, e⟩ <;> rw [e]
  · exact pushBit_wf _ h
  · exact pushBit_wf _ h
  · exact h

@[simp] theorem winDecode_cfg (lo hi : Nat) (s : State) : (winDecode lo hi s).cfg = s.cfg :=
  foldl_keeps _ (fun t : State => t.cfg) (fun t _ => symbol_cfg _ _ t) _ s
@[simp] theorem winDecode_res (lo hi : Nat) (s : State) : (winDecode lo hi s).res = s.res :=
  foldl_keeps _ (fun t : State => t.res) (fun t _ => symbol_res _ _ t) _ s
@[simp] theorem winDecode_tx (lo hi : Nat) (s : State) : (winDecode lo hi s).tx = s.tx :=
  foldl_keeps _ (fun t : State => t.tx) (fun t _ => symbol_tx _ _ t) _ s
@[simp] theorem winDecode_cmdErr (lo hi : Nat) (s : State) : (winDecode lo hi s).cmdErr = s.cmdErr :=
  foldl_keeps _ (fun t : State => t.cmdErr) (fun t _ => symbol_cmdErr _ _ t) _ s
@[simp] theorem winDecode_env (lo hi : Nat) (s : State) : (winDecode lo hi s).env = s.env :=
  foldl_keeps _ (fun t : State => t.env) (fun t _ => symbol_env _ _ t) _ s
@[simp] theorem winDecode_phase (lo hi : Nat) (s : State) : (winDecode lo hi s).rx.phase = s.rx.phase :=
  foldl_keeps _ (fun t : State => t.rx.phase) (fun t _ => symbol_phase _ _ t) _ s
@[simp] theorem winDecode_level (lo hi : Nat) (s : State) : (winDecode lo hi s).rx.level = s.rx.level :=
  foldl_keeps _ (fun t : State => t.rx.level) (fun t _ => symbol_level _ _ t) _ s
@[simp] theorem winDecode_elapsed (lo hi : Nat) (s : State) : (winDecode lo hi s).rx.elapsed = s.rx.elapsed :=
  foldl_keeps _ (fun t : State => t.rx.elapsed) (fun t _ => symbol_elapsed _ _ t) _ s
@[simp] theorem winDecode_unit (lo hi : Nat) (s : State) : (winDecode lo hi s).rx.unit = s.rx.unit :=
  foldl_keeps _ (fun t : State => t.rx.unit) (fun t _ => symbol_unit _ _ t) _ s
@[simp] theorem winDecode_cwovf (lo hi : Nat) (s : State) : (winDecode lo hi s).rx.cwovf = s.rx.cwovf :=
  foldl_keeps _ (fun t : State => t.rx.cwovf) (fun t _ => symbol_cwovf _ _ t) _ s
@[simp] theorem winDecode_cwcnt (lo hi : Nat) (s : State) : (winDecode lo hi s).rx.cwcnt = s.rx.cwcnt :=
  foldl_keeps _ (fun t : State => t.rx.cwcnt) (fun t _ => symbol_cwcnt _ _ t) _ s
@[simp] theorem winDecode_mem_cw (lo hi : Nat) (s : State) : (winDecode lo hi s).mem.cw = s.mem.cw :=
  foldl_keeps _ (fun t : State => t.mem.cw) (fun t _ => symbol_mem_cw _ _ t) _ s
@[simp] theorem winDecode_mem_rxpay (lo hi : Nat) (s : State) : (winDecode lo hi s).mem.rxpay = s.mem.rxpay :=
  foldl_keeps _ (fun t : State => t.mem.rxpay) (fun t _ => symbol_mem_rxpay _ _ t) _ s
@[simp] theorem winDecode_mem_txbuf (lo hi : Nat) (s : State) : (winDecode lo hi s).mem.txbuf = s.mem.txbuf :=
  foldl_keeps _ (fun t : State => t.mem.txbuf) (fun t _ => symbol_mem_txbuf _ _ t) _ s

theorem winDecode_wf (lo hi : Nat) {s : State} (h : s.mem.wf) : (winDecode lo hi s).mem.wf :=
  foldl_preserves _ (fun t : State => t.mem.wf) (fun _ _ ht => symbol_wf _ _ ht) _ s h

@[simp] theorem assembled_cfg (lo hi : Nat) (c : BitVec 5) (s : State) : (assembled lo hi c s).cfg = s.cfg := by
  unfold assembled; split <;> simp
@[simp] theorem assembled_res (lo hi : Nat) (c : BitVec 5) (s : State) : (assembled lo hi c s).res = s.res := by
  unfold assembled; split <;> simp
@[simp] theorem assembled_tx (lo hi : Nat) (c : BitVec 5) (s : State) : (assembled lo hi c s).tx = s.tx := by
  unfold assembled; split <;> simp
@[simp] theorem assembled_cmdErr (lo hi : Nat) (c : BitVec 5) (s : State) : (assembled lo hi c s).cmdErr = s.cmdErr := by
  unfold assembled; split <;> simp
@[simp] theorem assembled_env (lo hi : Nat) (c : BitVec 5) (s : State) : (assembled lo hi c s).env = s.env := by
  unfold assembled; split <;> simp
@[simp] theorem assembled_phase (lo hi : Nat) (c : BitVec 5) (s : State) : (assembled lo hi c s).rx.phase = s.rx.phase := by
  unfold assembled; split <;> simp
@[simp] theorem assembled_level (lo hi : Nat) (c : BitVec 5) (s : State) : (assembled lo hi c s).rx.level = s.rx.level := by
  unfold assembled; split <;> simp
@[simp] theorem assembled_elapsed (lo hi : Nat) (c : BitVec 5) (s : State) : (assembled lo hi c s).rx.elapsed = s.rx.elapsed := by
  unfold assembled; split <;> simp
@[simp] theorem assembled_unit (lo hi : Nat) (c : BitVec 5) (s : State) : (assembled lo hi c s).rx.unit = s.rx.unit := by
  unfold assembled; split <;> simp
@[simp] theorem assembled_cwovf (lo hi : Nat) (c : BitVec 5) (s : State) : (assembled lo hi c s).rx.cwovf = s.rx.cwovf := by
  unfold assembled; split <;> simp
@[simp] theorem assembled_cwcnt (lo hi : Nat) (c : BitVec 5) (s : State) : (assembled lo hi c s).rx.cwcnt = s.rx.cwcnt := by
  unfold assembled; split <;> simp
@[simp] theorem assembled_mem_cw (lo hi : Nat) (c : BitVec 5) (s : State) : (assembled lo hi c s).mem.cw = s.mem.cw := by
  unfold assembled; split <;> simp
@[simp] theorem assembled_mem_rxpay (lo hi : Nat) (c : BitVec 5) (s : State) : (assembled lo hi c s).mem.rxpay = s.mem.rxpay := by
  unfold assembled; split <;> simp
@[simp] theorem assembled_mem_txbuf (lo hi : Nat) (c : BitVec 5) (s : State) : (assembled lo hi c s).mem.txbuf = s.mem.txbuf := by
  unfold assembled; split <;> simp

theorem assembled_wf (lo hi : Nat) (c : BitVec 5) {s : State} (h : s.mem.wf) : (assembled lo hi c s).mem.wf := by
  unfold assembled
  split
  · exact winDecode_wf _ _ h
  · exact h

/-- In `CAL` mode the framer sees the state as it is (R150, R153). -/
theorem assembled_cal (lo hi : Nat) (c : BitVec 5) {s : State} (h : s.cfg.decodeMode = .cal) :
    assembled lo hi c s = s := by simp [assembled, h]

end Assembler

section Framer

@[simp] theorem deliver_cfg (n : Nat) (s : State) : (deliver n s).cfg = s.cfg := rfl
@[simp] theorem deliver_rx (n : Nat) (s : State) : (deliver n s).rx = s.rx := rfl
@[simp] theorem deliver_tx (n : Nat) (s : State) : (deliver n s).tx = s.tx := rfl
@[simp] theorem deliver_cmdErr (n : Nat) (s : State) : (deliver n s).cmdErr = s.cmdErr := rfl
@[simp] theorem deliver_env (n : Nat) (s : State) : (deliver n s).env = s.env := rfl
@[simp] theorem deliver_res (n : Nat) (s : State) : (deliver n s).res = { s.res with len := n } := rfl
@[simp] theorem deliver_mem_cw (n : Nat) (s : State) : (deliver n s).mem.cw = s.mem.cw :=
  foldl_keeps (fun m i => Memory.writeRxpay m i (ciph s.cfg (s.rxByte (payloadAt s.cfg + i)) i))
    (fun m : Memory => m.cw) (fun _ _ => rfl) _ s.mem
@[simp] theorem deliver_mem_rxbuf (n : Nat) (s : State) : (deliver n s).mem.rxbuf = s.mem.rxbuf :=
  foldl_keeps (fun m i => Memory.writeRxpay m i (ciph s.cfg (s.rxByte (payloadAt s.cfg + i)) i))
    (fun m : Memory => m.rxbuf) (fun _ _ => rfl) _ s.mem
@[simp] theorem deliver_mem_txbuf (n : Nat) (s : State) : (deliver n s).mem.txbuf = s.mem.txbuf :=
  foldl_keeps (fun m i => Memory.writeRxpay m i (ciph s.cfg (s.rxByte (payloadAt s.cfg + i)) i))
    (fun m : Memory => m.txbuf) (fun _ _ => rfl) _ s.mem

theorem deliver_wf (n : Nat) {s : State} (h : s.mem.wf) : (deliver n s).mem.wf :=
  foldl_preserves _ (fun m : Memory => m.wf) (fun _ _ hm => writeRxpay_wf _ _ hm) _ s.mem h

@[simp] theorem post_cfg (st : RxStatus) (c : BitVec 5) (lo hi : Nat) (s : State) :
    (post st c lo hi s).cfg = s.cfg := rfl
@[simp] theorem post_rx (st : RxStatus) (c : BitVec 5) (lo hi : Nat) (s : State) :
    (post st c lo hi s).rx = s.rx := rfl
@[simp] theorem post_tx (st : RxStatus) (c : BitVec 5) (lo hi : Nat) (s : State) :
    (post st c lo hi s).tx = s.tx := rfl
@[simp] theorem post_cmdErr (st : RxStatus) (c : BitVec 5) (lo hi : Nat) (s : State) :
    (post st c lo hi s).cmdErr = s.cmdErr := rfl
@[simp] theorem post_env (st : RxStatus) (c : BitVec 5) (lo hi : Nat) (s : State) :
    (post st c lo hi s).env = s.env := rfl
@[simp] theorem post_mem (st : RxStatus) (c : BitVec 5) (lo hi : Nat) (s : State) :
    (post st c lo hi s).mem = s.mem := rfl
@[simp] theorem post_stat (st : RxStatus) (c : BitVec 5) (lo hi : Nat) (s : State) :
    (post st c lo hi s).res.stat = st := rfl
@[simp] theorem post_cause (st : RxStatus) (c : BitVec 5) (lo hi : Nat) (s : State) :
    (post st c lo hi s).res.cause = if st = .badTiming then c else 0 := rfl
@[simp] theorem post_len (st : RxStatus) (c : BitVec 5) (lo hi : Nat) (s : State) :
    (post st c lo hi s).res.len = if st = .ok then s.res.len else 0 := rfl
@[simp] theorem post_nbytes (st : RxStatus) (c : BitVec 5) (lo hi : Nat) (s : State) :
    (post st c lo hi s).res.nbytes = s.rx.rxcnt := rfl
@[simp] theorem post_minLow (st : RxStatus) (c : BitVec 5) (lo hi : Nat) (s : State) :
    (post st c lo hi s).res.minLow = lo := rfl
@[simp] theorem post_minHigh (st : RxStatus) (c : BitVec 5) (lo hi : Nat) (s : State) :
    (post st c lo hi s).res.minHigh = hi := rfl
@[simp] theorem post_done (st : RxStatus) (c : BitVec 5) (lo hi : Nat) (s : State) :
    (post st c lo hi s).res.done = true := rfl
@[simp] theorem post_ovr (st : RxStatus) (c : BitVec 5) (lo hi : Nat) (s : State) :
    (post st c lo hi s).res.ovr = (s.res.ovr || s.res.done) := rfl

@[simp] theorem clear_cfg (s : State) : (clear s).cfg = s.cfg := rfl
@[simp] theorem clear_res (s : State) : (clear s).res = s.res := rfl
@[simp] theorem clear_tx (s : State) : (clear s).tx = s.tx := rfl
@[simp] theorem clear_cmdErr (s : State) : (clear s).cmdErr = s.cmdErr := rfl
@[simp] theorem clear_env (s : State) : (clear s).env = s.env := rfl
@[simp] theorem clear_mem (s : State) : (clear s).mem = s.mem := rfl
@[simp] theorem clear_phase (s : State) : (clear s).rx.phase = s.rx.phase := rfl
@[simp] theorem clear_level (s : State) : (clear s).rx.level = s.rx.level := rfl
@[simp] theorem clear_elapsed (s : State) : (clear s).rx.elapsed = s.rx.elapsed := rfl
@[simp] theorem clear_unit (s : State) : (clear s).rx.unit = s.rx.unit := rfl
@[simp] theorem clear_bad (s : State) : (clear s).rx.bad = false := rfl
@[simp] theorem clear_cwovf (s : State) : (clear s).rx.cwovf = false := rfl
@[simp] theorem clear_shreg (s : State) : (clear s).rx.shreg = 0 := rfl
@[simp] theorem clear_bitcnt (s : State) : (clear s).rx.bitcnt = 0 := rfl
@[simp] theorem clear_rxcnt (s : State) : (clear s).rx.rxcnt = 0 := rfl
@[simp] theorem clear_skip (s : State) : (clear s).rx.skip = s.cfg.rxStartBits := rfl
@[simp] theorem clear_cwcnt (s : State) : (clear s).rx.cwcnt = 0 := rfl

@[simp] theorem conclude_cfg (lo hi : Nat) (c : BitVec 5) (s : State) : (conclude lo hi c s).cfg = s.cfg := by
  simp only [conclude]; split <;> simp
@[simp] theorem conclude_tx (lo hi : Nat) (c : BitVec 5) (s : State) : (conclude lo hi c s).tx = s.tx := by
  simp only [conclude]; split <;> simp
@[simp] theorem conclude_cmdErr (lo hi : Nat) (c : BitVec 5) (s : State) : (conclude lo hi c s).cmdErr = s.cmdErr := by
  simp only [conclude]; split <;> simp
@[simp] theorem conclude_env (lo hi : Nat) (c : BitVec 5) (s : State) : (conclude lo hi c s).env = s.env := by
  simp only [conclude]; split <;> simp
@[simp] theorem conclude_phase (lo hi : Nat) (c : BitVec 5) (s : State) : (conclude lo hi c s).rx.phase = s.rx.phase := by
  simp only [conclude]; split <;> simp
@[simp] theorem conclude_level (lo hi : Nat) (c : BitVec 5) (s : State) : (conclude lo hi c s).rx.level = s.rx.level := by
  simp only [conclude]; split <;> simp
@[simp] theorem conclude_elapsed (lo hi : Nat) (c : BitVec 5) (s : State) : (conclude lo hi c s).rx.elapsed = s.rx.elapsed := by
  simp only [conclude]; split <;> simp
@[simp] theorem conclude_unit (lo hi : Nat) (c : BitVec 5) (s : State) : (conclude lo hi c s).rx.unit = s.rx.unit := by
  simp only [conclude]; split <;> simp
@[simp] theorem conclude_bad (lo hi : Nat) (c : BitVec 5) (s : State) : (conclude lo hi c s).rx.bad = false := by
  simp only [conclude]; split <;> simp
@[simp] theorem conclude_cwovf (lo hi : Nat) (c : BitVec 5) (s : State) : (conclude lo hi c s).rx.cwovf = false := by
  simp only [conclude]; split <;> simp
@[simp] theorem conclude_shreg (lo hi : Nat) (c : BitVec 5) (s : State) : (conclude lo hi c s).rx.shreg = 0 := by
  simp only [conclude]; split <;> simp
@[simp] theorem conclude_bitcnt (lo hi : Nat) (c : BitVec 5) (s : State) : (conclude lo hi c s).rx.bitcnt = 0 := by
  simp only [conclude]; split <;> simp
@[simp] theorem conclude_rxcnt (lo hi : Nat) (c : BitVec 5) (s : State) : (conclude lo hi c s).rx.rxcnt = 0 := by
  simp only [conclude]; split <;> simp
@[simp] theorem conclude_skip (lo hi : Nat) (c : BitVec 5) (s : State) : (conclude lo hi c s).rx.skip = s.cfg.rxStartBits := by
  simp only [conclude]; split <;> simp
@[simp] theorem conclude_cwcnt (lo hi : Nat) (c : BitVec 5) (s : State) : (conclude lo hi c s).rx.cwcnt = 0 := by
  simp only [conclude]; split <;> simp
@[simp] theorem conclude_mem_cw (lo hi : Nat) (c : BitVec 5) (s : State) : (conclude lo hi c s).mem.cw = s.mem.cw := by
  simp only [conclude]; split <;> simp
@[simp] theorem conclude_mem_rxbuf (lo hi : Nat) (c : BitVec 5) (s : State) : (conclude lo hi c s).mem.rxbuf = s.mem.rxbuf := by
  simp only [conclude]; split <;> simp
@[simp] theorem conclude_mem_txbuf (lo hi : Nat) (c : BitVec 5) (s : State) : (conclude lo hi c s).mem.txbuf = s.mem.txbuf := by
  simp only [conclude]; split <;> simp

theorem conclude_wf (lo hi : Nat) (c : BitVec 5) {s : State} (h : s.mem.wf) : (conclude lo hi c s).mem.wf := by
  simp only [conclude, clear_mem, post_mem]
  split
  · exact deliver_wf _ h
  · exact h

/-- The result a conclusion posts (R161): the kind, its cause, the length of an `OK` payload, the bytes captured, the
minima, and the two handshake flags. -/
theorem conclude_res (lo hi : Nat) (c : BitVec 5) (s : State) : (conclude lo hi c s).res =
    { stat := verdict s c
      cause := if verdict s c = .badTiming then c else 0
      len := if verdict s c = .ok then rxLenField s else 0
      nbytes := s.rx.rxcnt, minLow := lo, minHigh := hi, done := true, ovr := s.res.ovr || s.res.done } := by
  by_cases h : verdict s c = .ok <;> simp [conclude, post, h]

/-- `RXPAY` changes only with an `OK` message (R160, R161). -/
theorem conclude_rxpay_of_not_ok {lo hi : Nat} {c : BitVec 5} {s : State} (h : verdict s c ≠ .ok) :
    (conclude lo hi c s).mem.rxpay = s.mem.rxpay := by simp [conclude, h]

@[simp] theorem finalize_cfg (s : State) : (finalize s).cfg = s.cfg := by simp [finalize]
@[simp] theorem finalize_tx (s : State) : (finalize s).tx = s.tx := by simp [finalize]
@[simp] theorem finalize_cmdErr (s : State) : (finalize s).cmdErr = s.cmdErr := by simp [finalize]
@[simp] theorem finalize_env (s : State) : (finalize s).env = s.env := by simp [finalize]
@[simp] theorem finalize_phase (s : State) : (finalize s).rx.phase = s.rx.phase := by simp [finalize]
@[simp] theorem finalize_level (s : State) : (finalize s).rx.level = s.rx.level := by simp [finalize]
@[simp] theorem finalize_elapsed (s : State) : (finalize s).rx.elapsed = s.rx.elapsed := by simp [finalize]
@[simp] theorem finalize_unit (s : State) : (finalize s).rx.unit = s.rx.unit := by simp [finalize]
@[simp] theorem finalize_bad (s : State) : (finalize s).rx.bad = false := by simp [finalize]
@[simp] theorem finalize_cwovf (s : State) : (finalize s).rx.cwovf = false := by simp [finalize]
@[simp] theorem finalize_shreg (s : State) : (finalize s).rx.shreg = 0 := by simp [finalize]
@[simp] theorem finalize_bitcnt (s : State) : (finalize s).rx.bitcnt = 0 := by simp [finalize]
@[simp] theorem finalize_rxcnt (s : State) : (finalize s).rx.rxcnt = 0 := by simp [finalize]
@[simp] theorem finalize_skip (s : State) : (finalize s).rx.skip = s.cfg.rxStartBits := by simp [finalize]
@[simp] theorem finalize_cwcnt (s : State) : (finalize s).rx.cwcnt = 0 := by simp [finalize]
@[simp] theorem finalize_mem_cw (s : State) : (finalize s).mem.cw = s.mem.cw := by simp [finalize]
@[simp] theorem finalize_mem_txbuf (s : State) : (finalize s).mem.txbuf = s.mem.txbuf := by simp [finalize]

theorem finalize_wf {s : State} (h : s.mem.wf) : (finalize s).mem.wf :=
  conclude_wf _ _ _ (assembled_wf _ _ _ h)

/-- In `CAL` mode a finalization judges the bytes already assembled (R150). -/
theorem finalize_cal {s : State} (h : s.cfg.decodeMode = .cal) :
    finalize s = conclude (windowMin s false) (windowMin s true)
      (fullCause s (timingCause s (windowMin s false) (windowMin s true))) s := by
  simp [finalize, assembled_cal _ _ _ h]

end Framer

section Sequencing

@[simp] theorem accept_cfg (s : State) : (accept s).cfg = s.cfg := rfl
@[simp] theorem accept_res (s : State) : (accept s).res = s.res := rfl
@[simp] theorem accept_tx (s : State) : (accept s).tx = s.tx := rfl
@[simp] theorem accept_cmdErr (s : State) : (accept s).cmdErr = s.cmdErr := rfl
@[simp] theorem accept_env (s : State) : (accept s).env = s.env := rfl
@[simp] theorem accept_mem (s : State) : (accept s).mem = s.mem := rfl
@[simp] theorem passTime_cfg (s : State) : (passTime s).cfg = s.cfg := rfl
@[simp] theorem passTime_res (s : State) : (passTime s).res = s.res := rfl
@[simp] theorem passTime_tx (s : State) : (passTime s).tx = s.tx := rfl
@[simp] theorem passTime_cmdErr (s : State) : (passTime s).cmdErr = s.cmdErr := rfl
@[simp] theorem passTime_env (s : State) : (passTime s).env = s.env := rfl
@[simp] theorem passTime_mem (s : State) : (passTime s).mem = s.mem := rfl
@[simp] theorem markBad_cfg (s : State) : (markBad s).cfg = s.cfg := rfl
@[simp] theorem markBad_res (s : State) : (markBad s).res = s.res := rfl
@[simp] theorem markBad_tx (s : State) : (markBad s).tx = s.tx := rfl
@[simp] theorem markBad_cmdErr (s : State) : (markBad s).cmdErr = s.cmdErr := rfl
@[simp] theorem markBad_env (s : State) : (markBad s).env = s.env := rfl
@[simp] theorem markBad_mem (s : State) : (markBad s).mem = s.mem := rfl
@[simp] theorem accept_rx (s : State) : (accept s).rx = { s.rx with level := s.rxIn, elapsed := 0 } := rfl
@[simp] theorem passTime_rx (s : State) : (passTime s).rx = { s.rx with elapsed := s.diff } := rfl
@[simp] theorem markBad_rx (s : State) : (markBad s).rx = { s.rx with bad := true } := rfl
@[simp] theorem sendBit_cfg (h : Nat) (s : State) : (sendBit h s).cfg = s.cfg := rfl
@[simp] theorem sendBit_rx (h : Nat) (s : State) : (sendBit h s).rx = s.rx := rfl
@[simp] theorem sendBit_res (h : Nat) (s : State) : (sendBit h s).res = s.res := rfl
@[simp] theorem sendBit_cmdErr (h : Nat) (s : State) : (sendBit h s).cmdErr = s.cmdErr := rfl
@[simp] theorem sendBit_env (h : Nat) (s : State) : (sendBit h s).env = s.env := rfl
@[simp] theorem sendBit_mem (h : Nat) (s : State) : (sendBit h s).mem = s.mem := rfl
@[simp] theorem startTx_cfg (s : State) : (startTx s).cfg = s.cfg := rfl
@[simp] theorem startTx_rx (s : State) : (startTx s).rx = s.rx := rfl
@[simp] theorem startTx_res (s : State) : (startTx s).res = s.res := rfl
@[simp] theorem startTx_cmdErr (s : State) : (startTx s).cmdErr = s.cmdErr := rfl
@[simp] theorem startTx_env (s : State) : (startTx s).env = s.env := rfl
@[simp] theorem startTx_mem (s : State) : (startTx s).mem = s.mem := rfl
@[simp] theorem acknowledge_cfg (s : State) : (acknowledge s).cfg = s.cfg := rfl
@[simp] theorem acknowledge_rx (s : State) : (acknowledge s).rx = s.rx := rfl
@[simp] theorem acknowledge_tx (s : State) : (acknowledge s).tx = s.tx := rfl
@[simp] theorem acknowledge_cmdErr (s : State) : (acknowledge s).cmdErr = s.cmdErr := rfl
@[simp] theorem acknowledge_env (s : State) : (acknowledge s).env = s.env := rfl
@[simp] theorem acknowledge_mem (s : State) : (acknowledge s).mem = s.mem := rfl
@[simp] theorem refuseCmd_cfg (s : State) : (refuseCmd s).cfg = s.cfg := rfl
@[simp] theorem refuseCmd_rx (s : State) : (refuseCmd s).rx = s.rx := rfl
@[simp] theorem refuseCmd_res (s : State) : (refuseCmd s).res = s.res := rfl
@[simp] theorem refuseCmd_tx (s : State) : (refuseCmd s).tx = s.tx := rfl
@[simp] theorem refuseCmd_env (s : State) : (refuseCmd s).env = s.env := rfl
@[simp] theorem refuseCmd_mem (s : State) : (refuseCmd s).mem = s.mem := rfl
@[simp] theorem refuseCmd_cmdErr (s : State) : (refuseCmd s).cmdErr = true := rfl

/-- The pins, the sampled level and `diff` depend on the model's own fields, the configuration and `ELAPSED` only. -/
theorem input_of_env {s t : State} (h : t.env = s.env) : t.input = s.input := by simp [State.input, h]

theorem rxIn_of_env {s t : State} (h : t.env = s.env) : t.rxIn = s.rxIn := by
  simp [State.rxIn, input_of_env h, h]

theorem diff_of_rx {s t : State} (hc : t.cfg = s.cfg) (h : t.rx.elapsed = s.rx.elapsed) : t.diff = s.diff := by
  simp [State.diff, hc, h]

/-- `sat_inc` never exceeds `SATMAX`, so `diff` always fits `TW` bits (R11). -/
theorem satInc_le (c : Config) (v : Nat) : satInc c v ≤ satMax c := by
  unfold satInc
  split
  · omega
  · exact Nat.le_refl _

end Sequencing

end Sys2Proof.Machine
end

