-- ==== Sys2Proof/Laws/PerInstr.lean ====
section
/-!
SUPPORT. A statement made of every instruction, with one lemma per constructor: the encoder's word falls under the
instruction's own row of spec/opcode_table.json, its fixed bits as the row has them.
-/

namespace Sys2Proof.Laws

/-- The word of an instruction lies in the row's code space and has the row's fixed bits (R91, R94, R97). -/
def RowPattern.Statement (i : Instr) : Prop :=
  i.wellFormed = true → ∃ r ∈ opcodeTable, r.mnemonic = i.mnemonic ∧ rowMatches r (encode i) = true

/-- A row of the table with the instruction's name and the bits of its word. -/
theorem rowPattern_of_row {i : Instr} (r : TableRow) (hr : r ∈ opcodeTable) (hn : r.mnemonic = i.mnemonic)
    (hm : rowMatches r (encode i) = true) : RowPattern.Statement i := fun _ => ⟨r, hr, hn, hm⟩

theorem RowPattern.gate (low : BitVec 8) : RowPattern.Statement (.gate low) :=
  rowPattern_of_row ⟨"GATE", .vector, 0x100, 0x100⟩ (by simp [opcodeTable, classifierRows, selectorRows, commandRows]) rfl
    (by revert low; decide)

theorem RowPattern.hold (m j : Bool) (pp : BitVec 2) (a b c : Bool) : RowPattern.Statement (.hold m j pp a b c) :=
  rowPattern_of_row ⟨"HOLD", .vector, 0x040, 0x000⟩ (by simp [opcodeTable, classifierRows, selectorRows, commandRows]) rfl
    (by revert m j pp a b c; decide)

theorem RowPattern.noise (m : Bool) (pp : BitVec 2) (a b c : Bool) : RowPattern.Statement (.noise m pp a b c) :=
  rowPattern_of_row ⟨"NOISE", .vector, 0x060, 0x060⟩ (by simp [opcodeTable, classifierRows, selectorRows, commandRows]) rfl
    (by revert m pp a b c; decide)

theorem RowPattern.first (m a b c : Bool) : RowPattern.Statement (.first m a b c) :=
  rowPattern_of_row ⟨"FIRST", .vector, 0x078, 0x040⟩ (by simp [opcodeTable, classifierRows, selectorRows, commandRows]) rfl
    (by revert m a b c; decide)

theorem RowPattern.calib (m a b c : Bool) : RowPattern.Statement (.calib m a b c) :=
  rowPattern_of_row ⟨"CALIB", .vector, 0x078, 0x048⟩ (by simp [opcodeTable, classifierRows, selectorRows, commandRows]) rfl
    (by revert m a b c; decide)

theorem RowPattern.runt (b : Bool) : RowPattern.Statement (.runt b) :=
  rowPattern_of_row ⟨"RUNT", .vector, 0x0FC, 0x050⟩ (by simp [opcodeTable, classifierRows, selectorRows, commandRows]) rfl
    (by revert b; decide)

theorem RowPattern.zero : RowPattern.Statement (.zero) :=
  rowPattern_of_row ⟨"ZERO", .vector, 0x0FE, 0x054⟩ (by simp [opcodeTable, classifierRows, selectorRows, commandRows]) rfl
    (by decide)

theorem RowPattern.one : RowPattern.Statement (.one) :=
  rowPattern_of_row ⟨"ONE", .vector, 0x0FF, 0x056⟩ (by simp [opcodeTable, classifierRows, selectorRows, commandRows]) rfl
    (by decide)

theorem RowPattern.long (a b : Bool) : RowPattern.Statement (.long a b) :=
  rowPattern_of_row ⟨"LONG", .vector, 0x0F9, 0x051⟩ (by simp [opcodeTable, classifierRows, selectorRows, commandRows]) rfl
    (by revert a b; decide)

theorem RowPattern.recOnly (a b c : Bool) : RowPattern.Statement (.recOnly a b c) :=
  rowPattern_of_row ⟨"REC", .vector, 0x0F8, 0x0D0⟩ (by simp [opcodeTable, classifierRows, selectorRows, commandRows]) rfl
    (by revert a b c; decide)

theorem RowPattern.tidle (h e r bt : Bool) : RowPattern.Statement (.tidle h e r bt) :=
  rowPattern_of_row ⟨"TIDLE", .selector, 0x10, 0x10⟩ (by simp [opcodeTable, classifierRows, selectorRows, commandRows]) rfl
    (by revert h e r bt; decide)

theorem RowPattern.thold (e r bt : Bool) : RowPattern.Statement (.thold e r bt) :=
  rowPattern_of_row ⟨"THOLD", .selector, 0x18, 0x08⟩ (by simp [opcodeTable, classifierRows, selectorRows, commandRows]) rfl
    (by revert e r bt; decide)

theorem RowPattern.tzero : RowPattern.Statement (.tzero) :=
  rowPattern_of_row ⟨"TZERO", .selector, 0x1F, 0x02⟩ (by simp [opcodeTable, classifierRows, selectorRows, commandRows]) rfl
    (by decide)

theorem RowPattern.tone : RowPattern.Statement (.tone) :=
  rowPattern_of_row ⟨"TONE", .selector, 0x1F, 0x03⟩ (by simp [opcodeTable, classifierRows, selectorRows, commandRows]) rfl
    (by decide)

theorem RowPattern.tend (bt : Bool) : RowPattern.Statement (.tend bt) :=
  rowPattern_of_row ⟨"TEND", .selector, 0x1E, 0x00⟩ (by simp [opcodeTable, classifierRows, selectorRows, commandRows]) rfl
    (by revert bt; decide)

theorem RowPattern.tdone (r bt : Bool) : RowPattern.Statement (.tdone r bt) :=
  rowPattern_of_row ⟨"TDONE", .selector, 0x1C, 0x04⟩ (by simp [opcodeTable, classifierRows, selectorRows, commandRows]) rfl
    (by revert r bt; decide)

theorem RowPattern.nop (arg : Byte) : RowPattern.Statement (.nop arg) :=
  rowPattern_of_row ⟨"NOP", .command, 0xF00, 0x000⟩ (by simp [opcodeTable, classifierRows, selectorRows, commandRows]) rfl
    (by revert arg; decide)

theorem RowPattern.txclr (arg : Byte) : RowPattern.Statement (.txclr arg) :=
  rowPattern_of_row ⟨"TXCLR", .command, 0xF00, 0x100⟩ (by simp [opcodeTable, classifierRows, selectorRows, commandRows]) rfl
    (by revert arg; decide)

theorem RowPattern.txpush (arg : Byte) : RowPattern.Statement (.txpush arg) :=
  rowPattern_of_row ⟨"TXPUSH", .command, 0xF00, 0x200⟩ (by simp [opcodeTable, classifierRows, selectorRows, commandRows]) rfl
    (by revert arg; decide)

theorem RowPattern.txgo (arg : Byte) : RowPattern.Statement (.txgo arg) :=
  rowPattern_of_row ⟨"TXGO", .command, 0xF00, 0x300⟩ (by simp [opcodeTable, classifierRows, selectorRows, commandRows]) rfl
    (by revert arg; decide)

theorem RowPattern.rxack (arg : Byte) : RowPattern.Statement (.rxack arg) :=
  rowPattern_of_row ⟨"RXACK", .command, 0xF00, 0x400⟩ (by simp [opcodeTable, classifierRows, selectorRows, commandRows]) rfl
    (by revert arg; decide)

theorem RowPattern.errclr (arg : Byte) : RowPattern.Statement (.errclr arg) :=
  rowPattern_of_row ⟨"ERRCLR", .command, 0xF00, 0x500⟩ (by simp [opcodeTable, classifierRows, selectorRows, commandRows]) rfl
    (by revert arg; decide)

theorem RowPattern.reserved67 (lo : Bool) (arg : Byte) : RowPattern.Statement (.reserved67 lo arg) :=
  rowPattern_of_row ⟨"RESERVED_6_7", .command, 0xE00, 0x600⟩ (by simp [opcodeTable, classifierRows, selectorRows, commandRows]) rfl
    (by revert lo arg; decide)

theorem RowPattern.reserved8F (lo : BitVec 3) (arg : Byte) : RowPattern.Statement (.reserved8F lo arg) :=
  rowPattern_of_row ⟨"RESERVED_8_F", .command, 0x800, 0x800⟩ (by simp [opcodeTable, classifierRows, selectorRows, commandRows]) rfl
    (by revert lo arg; decide)

end Sys2Proof.Laws
end

