-- ==== Sys2Proof/Laws/Safety.lean ====
section
/-!
SUPPORT. The vocabulary of Safety.lean against the operations of `FINALIZE`: the timing causes, and the framer's view.
-/

namespace Sys2Proof.Machine

theorem timingCause_eq_zero_iff (s : State) :
    timingCause s (windowMin s false) (windowMin s true) = 0 ↔ timingClear s := by
  have bits : ∀ a b c : Bool, causeOf a b false c false = 0 ↔ a = false ∧ b = false ∧ c = false := by decide
  simp only [timingCause, bits, causeNoMin, causeSubRej, timingClear, Bool.or_eq_false_iff,
    decide_eq_false_iff_not, not_le, not_lt, and_assoc]

theorem assembled_eq_framerView (s : State) :
    assembled (windowMin s false) (windowMin s true)
      (timingCause s (windowMin s false) (windowMin s true)) s = framerView s := by
  simp only [assembled, framerView, timingCause_eq_zero_iff]

/-- What `FINALIZE` does: it concludes the framer's view of the message. -/
theorem finalize_eq (s : State) :
    finalize s = conclude (windowMin s false) (windowMin s true)
      (fullCause (framerView s) (timingCause s (windowMin s false) (windowMin s true))) (framerView s) := by
  rw [← assembled_eq_framerView]; rfl

theorem framerView_cal {s : State} (h : s.cfg.decodeMode = .cal) : framerView s = s := by
  simp [framerView, h]

@[simp] theorem framerView_cfg (s : State) : (framerView s).cfg = s.cfg := by
  unfold framerView; split <;> simp
@[simp] theorem framerView_res (s : State) : (framerView s).res = s.res := by
  unfold framerView; split <;> simp
@[simp] theorem framerView_cwovf (s : State) : (framerView s).rx.cwovf = s.rx.cwovf := by
  unfold framerView; split <;> simp
@[simp] theorem framerView_mem_rxpay (s : State) : (framerView s).mem.rxpay = s.mem.rxpay := by
  unfold framerView; split <;> simp

theorem framerView_wf {s : State} (h : s.mem.wf) : (framerView s).mem.wf := by
  unfold framerView; split
  · exact winDecode_wf _ _ h
  · exact h

end Sys2Proof.Machine
end

