-- ==== Sys2Proof/Laws/Step.lean ====
section
/-!
SUPPORT. What a step can do, said once, and what moving on to the next step of a tick leaves alone.
-/

namespace Sys2Proof.Machine

/-- Every step that answers a next state is a tick with `rst = 1`, a `HOSTCMD` with no command, or a decoded and well
formed instruction run by `exec` (R8, R200, R250). -/
theorem step_cases {s t : State} (h : step s = .next t) :
    configOk s.cfg = true ∧
    ((s.input.rst = true ∧ t = resetTick s) ∨
     (s.input.rst = false ∧ fetchWord s = none ∧ t = advance false s) ∨
     (s.input.rst = false ∧ ∃ w i u, fetchWord s = some w ∧ decode w = .ok i ∧ i.wellFormed = true ∧
        exec i s = .next u ∧ t = advance i.isGate u)) := by
  unfold step at h
  split at h
  · rename_i hc
    refine ⟨hc, ?_⟩
    split at h
    · rename_i hr
      exact .inl ⟨hr, by simpa using h.symm⟩
    · rename_i hr
      have hr : s.input.rst = false := by simpa using hr
      split at h
      · rename_i hf
        exact .inr (.inl ⟨hr, hf, by simpa using h.symm⟩)
      · rename_i w hf
        unfold runWord at h
        split at h
        · cases h
        · rename_i i hd
          split at h
          · rename_i hw
            unfold runInstr at h
            split at h
            · rename_i u hu
              exact .inr (.inr ⟨hr, w, i, u, hf, hd, hw, hu, by simpa using h.symm⟩)
            · cases h
            · cases h
          · cases h
  · cases h

@[simp] theorem nextTick_cfg (s : State) : (nextTick s).cfg = s.cfg := rfl
@[simp] theorem nextTick_rx (s : State) : (nextTick s).rx = s.rx := rfl
@[simp] theorem nextTick_res (s : State) : (nextTick s).res = s.res := rfl
@[simp] theorem nextTick_tx (s : State) : (nextTick s).tx = s.tx := rfl
@[simp] theorem nextTick_cmdErr (s : State) : (nextTick s).cmdErr = s.cmdErr := rfl
@[simp] theorem nextTick_mem (s : State) : (nextTick s).mem = s.mem := rfl

@[simp] theorem advance_cfg (g : Bool) (s : State) : (advance g s).cfg = s.cfg := by
  unfold advance
  split
  · rfl
  · rfl
  · split <;> rfl
@[simp] theorem advance_rx (g : Bool) (s : State) : (advance g s).rx = s.rx := by
  unfold advance
  split
  · rfl
  · rfl
  · split <;> rfl
@[simp] theorem advance_res (g : Bool) (s : State) : (advance g s).res = s.res := by
  unfold advance
  split
  · rfl
  · rfl
  · split <;> rfl
@[simp] theorem advance_tx (g : Bool) (s : State) : (advance g s).tx = s.tx := by
  unfold advance
  split
  · rfl
  · rfl
  · split <;> rfl
@[simp] theorem advance_cmdErr (g : Bool) (s : State) : (advance g s).cmdErr = s.cmdErr := by
  unfold advance
  split
  · rfl
  · rfl
  · split <;> rfl
@[simp] theorem advance_mem (g : Bool) (s : State) : (advance g s).mem = s.mem := by
  unfold advance
  split
  · rfl
  · rfl
  · split <;> rfl

end Sys2Proof.Machine
end

