-- ==== Sys2Proof/Tests/Slice0.lean ====
section
/-!
SUPPORT. The model's own tests: the ill-formed terms WellFormed refuses, a word written out for every constructor, one
or two steps of every instruction from the vectors of spec/95_test_vectors.md, and a witness for the premises of each
statement that has premises.
-/

namespace Sys2Proof.Tests

open Sys2Proof Sys2Proof.Machine

/-! ## WellFormed refuses an ill-formed term, one for each check (R92, R94) -/

theorem test_gate_with_reject_is_ill_formed : (Instr.gate 0b00100000).wellFormed = false := by decide
theorem test_gate_with_phase_is_ill_formed : (Instr.gate 0b00010000).wellFormed = false := by decide
theorem test_gate_with_broken_ladder_is_ill_formed : (Instr.gate 0b00000001).wellFormed = false := by decide
theorem test_hold_in_phase_three_is_ill_formed :
    (Instr.hold false false 3 true true true).wellFormed = false := by decide
theorem test_noise_in_phase_three_is_ill_formed : (Instr.noise false 3 true true true).wellFormed = false := by decide
theorem test_hold_with_broken_ladder_is_ill_formed :
    (Instr.hold false false 0 false true false).wellFormed = false := by decide
theorem test_noise_with_broken_ladder_is_ill_formed : (Instr.noise false 0 true false true).wellFormed = false := by
  decide
theorem test_first_with_broken_ladder_is_ill_formed : (Instr.first false false true false).wellFormed = false := by
  decide
theorem test_calib_with_broken_ladder_is_ill_formed : (Instr.calib false false false true).wellFormed = false := by
  decide
theorem test_runt_with_b_is_ill_formed : (Instr.runt true).wellFormed = false := by decide
theorem test_long_without_a_is_ill_formed : (Instr.long false false).wellFormed = false := by decide
theorem test_rec_with_broken_ladder_is_ill_formed : (Instr.recOnly false true true).wellFormed = false := by decide
theorem test_tidle_in_end_is_ill_formed : (Instr.tidle false true true true).wellFormed = false := by decide
theorem test_tidle_bit_past_the_frame_is_ill_formed : (Instr.tidle false false false true).wellFormed = false := by
  decide
theorem test_thold_bit_past_the_frame_is_ill_formed : (Instr.thold false false true).wellFormed = false := by decide
theorem test_tend_bit_past_the_frame_is_ill_formed : (Instr.tend true).wellFormed = false := by decide
theorem test_tdone_bit_past_the_frame_is_ill_formed : (Instr.tdone false true).wellFormed = false := by decide

/-! ## Decoding: each word written out from the spec's encoding (R91, R94, R97) -/

theorem test_decode_gate : decode (.vector 0b101000110) = .ok (.gate 0b01000110) := by decide
theorem test_decode_hold : decode (.vector 0b010010110) = .ok (.hold true false 2 true true false) := by decide
theorem test_decode_noise : decode (.vector 0b001101100) = .ok (.noise false 1 true false false) := by decide
theorem test_decode_first : decode (.vector 0b011000111) = .ok (.first true true true true) := by decide
theorem test_decode_calib : decode (.vector 0b001001111) = .ok (.calib false true true true) := by decide
theorem test_decode_runt : decode (.vector 0b001010000) = .ok (.runt false) := by decide
theorem test_decode_zero : decode (.vector 0b001010100) = .ok .zero := by decide
theorem test_decode_one : decode (.vector 0b001010110) = .ok .one := by decide
theorem test_decode_long : decode (.vector 0b001010111) = .ok (.long true true) := by decide
theorem test_decode_rec : decode (.vector 0b011010110) = .ok (.recOnly true true false) := by decide
theorem test_decode_unreachable_phase : decode (.vector 0b001011000) = .error .unreachablePhase := by decide
theorem test_decode_tidle : decode (.selector 0b10010) = .ok (.tidle false false true false) := by decide
theorem test_decode_thold : decode (.selector 0b01101) = .ok (.thold true false true) := by decide
theorem test_decode_tzero : decode (.selector 0b00010) = .ok .tzero := by decide
theorem test_decode_tone : decode (.selector 0b00011) = .ok .tone := by decide
theorem test_decode_tend : decode (.selector 0b00000) = .ok (.tend false) := by decide
theorem test_decode_tdone : decode (.selector 0b00110) = .ok (.tdone true false) := by decide
theorem test_decode_nop : decode (.command 0x0AB) = .ok (.nop 0xAB) := by decide
theorem test_decode_txclr : decode (.command 0x100) = .ok (.txclr 0x00) := by decide
theorem test_decode_txpush : decode (.command 0x24F) = .ok (.txpush 0x4F) := by decide
theorem test_decode_txgo : decode (.command 0x300) = .ok (.txgo 0x00) := by decide
theorem test_decode_rxack : decode (.command 0x400) = .ok (.rxack 0x00) := by decide
theorem test_decode_errclr : decode (.command 0x5AA) = .ok (.errclr 0xAA) := by decide
theorem test_decode_reserved67 : decode (.command 0x7FF) = .ok (.reserved67 true 0xFF) := by decide
theorem test_decode_reserved8F : decode (.command 0xF00) = .ok (.reserved8F 7 0x00) := by decide

/-! ## Small states -/

/-- The test configuration `T` of 95_test_vectors.md with `RX_REJECT_PERIOD = 5` (section 2.3). -/
def cfg5 : Config := { Config.testT with rxRejectPeriod := 5 }

/-- The state after reset, one tick's pins presented, at one of the tick's steps. -/
def at_ (c : Config) (slot : Slot) (t : TickInput) : State :=
  (State.resetWith c).setEnv { slot := slot, inputs := [t], ticks := 0, wire := false }

/-- `RXSTEP` about to run, with a level on `rx_in` and given registers. -/
def rxAt (c : Config) (l : Level) (phase : RxPhase) (level : Level) (elapsed unit : Nat) : State :=
  let s := at_ c .rx (quietInput l)
  s.setRx { s.rx with phase := phase, level := level, elapsed := elapsed, unit := unit }

/-- `TXSTEP` about to run with `TXBUF = 4F 4B` and given registers (vectors T6 to T12). -/
def txAt (phase : TxPhase) (level : Level) (hold idx : Nat) : State :=
  let s := at_ Config.testT .tx (quietInput false)
  (s.setMem { s.mem with txbuf := [(0, 0x4F), (1, 0x4B)] }).setTx ⟨phase, level, hold, idx, 2⟩

/-- `HOSTCMD` about to run with a command word, the transmitter idle with `TXBUF = 4F`. -/
def cmdAt (w : BitVec 12) : State :=
  let s := at_ Config.testT .host { quietInput false with cmdValid := true, cmd := w }
  (s.setMem { s.mem with txbuf := [(0, 0x4F)] }).setTx { s.tx with len := 1 }

/-- A finished message: 8 bytes captured, a window of 6 events of 10 ticks, the silence gate about to fire. -/
def captured (bytes : List Byte) : State :=
  let s := at_ Config.testT .rx (quietInput false)
  (s.setMem { s.mem with
      rxbuf := (List.range bytes.length).map fun i => (i, bytes.getD i 0)
      cw := [(0, ⟨0, true, 10⟩), (1, ⟨1, false, 10⟩), (2, ⟨2, true, 10⟩), (3, ⟨3, false, 10⟩), (4, ⟨4, true, 10⟩),
        (5, ⟨5, false, 10⟩)] }).setRx
    { s.rx with phase := .data, level := true, elapsed := 100, unit := 9, rxcnt := bytes.length, cwcnt := 6 }

/-- The next state an instruction answers, if it does. -/
def after (o : Host.Outcome State Fault Refusal) : Option State :=
  match o with
  | .next t => some t
  | _ => none

/-- The mnemonic of the instruction the next step decodes. -/
def selected (s : State) : Option String :=
  match fetchWord s with
  | none => none
  | some w =>
    match decode w with
    | .ok i => some i.mnemonic
    | .error _ => none

/-! ## Every instruction, from the spec's vectors -/

/-- Vector C4. -/
theorem test_hold_counts : (after (step (rxAt cfg5 false .idle false 7 0))).map (·.rx.elapsed) = some 8 := by decide
/-- Vector C5. -/
theorem test_hold_saturates :
    (after (exec (.hold false false 0 true true true) (rxAt cfg5 false .idle false 65535 0))).map (·.rx.elapsed)
      = some 65535 := by decide
/-- Vector C7: nothing but the time. -/
theorem test_noise_leaves_level :
    (after (step (rxAt cfg5 false .data true 2 9))).map (fun t => (t.rx.elapsed, t.rx.level)) = some (3, true) := by
  decide
/-- Vector C7: the class. -/
theorem test_noise_selected : selected (rxAt cfg5 false .data true 2 9) = some "NOISE" := by decide
/-- Vector C6. -/
theorem test_first_opens :
    (after (step (rxAt cfg5 true .idle false 5000 3))).map (fun t => (t.rx.level, t.rx.elapsed, t.rx.unit, t.rx.phase))
      = some (true, 0, 0, .start) := by decide
/-- Vector C9: `CW[0] = (0, 1, 10)`, `UNIT = 9`. -/
theorem test_calib_records :
    (after (step (rxAt cfg5 false .start true 9 0))).map (fun t => (t.mem.cw, t.rx.unit, t.rx.phase))
      = some ([(0, ⟨0, true, 10⟩)], 9, .data) := by decide
/-- Vector C2e: `floor(9*11/10) = 9`. -/
theorem test_calib_floors :
    (after (exec (.calib false true true true) (rxAt cfg5 false .start true 10 0))).map (·.rx.unit) = some 9 := by decide
/-- Vector C14: 4 ticks against unit 10. -/
theorem test_runt_marks_bad :
    (after (step (rxAt Config.testT true .data false 3 10))).map (fun t => (t.rx.bad, t.rx.bitcnt)) = some (true, 0) := by
  decide
/-- Vector C10. -/
theorem test_zero_pushes :
    (after (step (rxAt cfg5 true .data false 9 9))).map (fun t => (t.rx.shreg, t.rx.bitcnt, t.rx.cwcnt, t.rx.level))
      = some (0x00, 1, 1, true) := by decide
/-- Vector C13: the tie 0.5 goes up. -/
theorem test_zero_tie_selected : selected (rxAt Config.testT true .data false 4 10) = some "ZERO" := by decide
/-- Vector C11. -/
theorem test_one_pushes :
    (after (step (rxAt cfg5 false .data true 19 9))).map (fun t => (t.rx.shreg, t.rx.bitcnt)) = some (0x01, 1) := by
  decide
/-- Vector A1: `SHREG = 0x31`, `BITCNT = 7`, `PUSHBIT(1)` stores `0x63`. -/
theorem test_one_completes_a_byte :
    (after (exec .one ((rxAt cfg5 false .data true 19 9).setRx
        { (rxAt cfg5 false .data true 19 9).rx with shreg := 0x31, bitcnt := 7 }))).map
      (fun t => (t.rx.shreg, t.rx.bitcnt, t.mem.rxbuf, t.rx.rxcnt)) = some (0x63, 0, [(0, 0x63)], 1) := by decide
/-- Vector C12: `2*23 >= 45`. -/
theorem test_long_marks_bad :
    (after (step (rxAt cfg5 true .data false 22 9))).map (fun t => (t.rx.bad, t.mem.cw))
      = some (true, [(0, ⟨0, false, 23⟩)]) := by decide
/-- Vector C15. -/
theorem test_rec_only_records :
    (after (step (rxAt { cfg5 with decodeMode := .min } true .data false 19 9))).map
      (fun t => (t.mem.cw, t.rx.bitcnt, t.rx.bad)) = some ([(0, ⟨0, false, 20⟩)], 0, false) := by decide
/-- Vector F1: the example frame is delivered as `4F 4B`. -/
theorem test_gate_delivers :
    (after (step (captured [0x63, 0xF9, 0x5C, 0x1B, 0x02, 0x8A, 0x4C, 0xC6]))).map
      (fun t => (t.res.stat, t.res.len, t.mem.rxpay, t.rx.phase)) =
      some (.ok, 2, [(0, 0x4F), (1, 0x4B)], .idle) := by decide
/-- Vector F5: one payload byte changed. -/
theorem test_gate_rejects_a_changed_byte :
    (after (exec (.gate 0) (captured [0x63, 0xF9, 0x5C, 0x1B, 0x02, 0x8B, 0x4C, 0xC6]))).map
      (fun t => (t.res.stat, t.res.len, t.res.done)) = some (.checksumMismatch, 0, true) := by decide
/-- Vector T6. -/
theorem test_tidle_selected : selected (txAt .idle false 0 0) = some "TIDLE" := by decide
/-- Vector T6: unchanged. -/
theorem test_tidle_changes_nothing :
    (after (exec (.tidle false false true false) (txAt .idle false 0 0))).map (·.tx) = some ⟨.idle, false, 0, 0, 2⟩ := by
  decide
/-- Vector T7. -/
theorem test_thold_counts_down : (after (step (txAt .start true 10 0))).map (·.tx.hold) = some 9 := by decide
/-- Vector T8. -/
theorem test_tzero_sends :
    (after (step (txAt .start true 1 0))).map (·.tx) = some ⟨.data, false, 10, 1, 2⟩ := by decide
/-- Vector T9. -/
theorem test_tone_sends :
    (after (step (txAt .data false 1 1))).map (·.tx) = some ⟨.data, true, 20, 2, 2⟩ := by decide
/-- Vector T10. -/
theorem test_tend_goes_off :
    (after (step (txAt .data true 1 64))).map (·.tx) = some ⟨.end_, false, 150, 64, 2⟩ := by decide
/-- Vector T12. -/
theorem test_tdone_is_idle :
    (after (step (txAt .end_ false 1 64))).map (·.tx) = some ⟨.idle, false, 0, 64, 2⟩ := by decide
/-- Section 2.11, tick 0. -/
theorem test_nop_changes_nothing : (after (step (cmdAt 0x0AB))).map (fun t => (t.tx.len, t.cmdErr)) = some (1, false) := by
  decide
/-- R202. -/
theorem test_txclr_empties : (after (step (cmdAt 0x100))).map (fun t => (t.tx.len, t.cmdErr)) = some (0, false) := by
  decide
/-- Section 2.11, tick 10: busy. -/
theorem test_txclr_refused :
    (after (exec (.txclr 0) (txAt .start true 8 0))).map (fun t => (t.tx.len, t.cmdErr)) = some (2, true) := by decide
/-- Section 2.11, tick 2. -/
theorem test_txpush_appends :
    (after (step (cmdAt 0x24B))).map (fun t => (t.mem.txbuf, t.tx.len)) = some ([(0, 0x4F), (1, 0x4B)], 2) := by decide
/-- Section 2.11, tick 8: busy. -/
theorem test_txpush_refused :
    (after (exec (.txpush 0x55) (txAt .start true 9 0))).map (fun t => (t.tx.len, t.cmdErr)) = some (2, true) := by
  decide
/-- Section 2.11, tick 7. -/
theorem test_txgo_starts : (after (step (cmdAt 0x300))).map (·.tx) = some ⟨.start, true, 10, 0, 1⟩ := by decide
/-- Section 2.11, tick 12: busy, not restarted. -/
theorem test_txgo_refused :
    (after (exec (.txgo 0) (txAt .start true 6 0))).map (fun t => (t.tx.hold, t.cmdErr)) = some (6, true) := by decide
/-- R205. -/
theorem test_rxack_clears :
    (after (exec (.rxack 0) ((cmdAt 0x400).setRes { (cmdAt 0x400).res with stat := .ok, done := true, ovr := true }))).map
      (fun t => (t.res.done, t.res.ovr, t.res.stat)) = some (false, false, .ok) := by decide
/-- Section 2.11, tick 13: `arg` ignored. -/
theorem test_errclr_clears : (after (step ((cmdAt 0x5AA).setCmdErr true))).map (·.cmdErr) = some false := by decide
/-- Section 2.11, tick 5. -/
theorem test_reserved67_refused : (after (step (cmdAt 0x7FF))).map (fun t => (t.cmdErr, t.tx.len)) = some (true, 1) := by
  decide
/-- Section 2.11, tick 15. -/
theorem test_reserved8F_refused : (after (step (cmdAt 0xF00))).map (fun t => (t.cmdErr, t.tx.len)) = some (true, 1) := by
  decide

/-! ## Witnesses: concrete states and operands that meet the premises of each statement that has premises -/

/-- The example frame of the spec, as received. -/
def exFrame : List Byte := [0x63, 0xF9, 0x5C, 0x1B, 0x02, 0x8A, 0x4C, 0xC6]

/-- A state with a message open and data running, its first event recorded. -/
def oneEvent : State :=
  let s := rxAt cfg5 false .data false 19 9
  (s.setMem { s.mem with cw := [(0, ⟨0, true, 10⟩)] }).setRx { s.rx with cwcnt := 1 }

/-- The clause of `MessageOk` about neighbouring events, in the form `decide` evaluates. -/
theorem alternate_of (s : State)
    (h : ∀ k, k < s.rx.cwcnt - 1 → (s.mem.readCw (k + 1)).level = !(s.mem.readCw k).level) :
    ∀ k, k + 1 < s.rx.cwcnt → (s.mem.readCw (k + 1)).level = !(s.mem.readCw k).level :=
  fun k hk => h k (by omega)

theorem oneEvent_messageOk : MessageOk oneEvent :=
  ⟨by decide, alternate_of _ (by decide), by decide, by decide, by decide⟩

theorem captured_messageOk : MessageOk (captured exFrame) :=
  ⟨by decide, alternate_of _ (by decide), by decide, by decide, by decide⟩

theorem idle_messageOk : MessageOk (rxAt Config.testT false .idle false 50 0) :=
  ⟨by decide, alternate_of _ (by decide), by decide, by decide, by decide⟩

theorem witness_decode_of_encode :
    (Instr.hold true true 2 true true true).wellFormed = true ∧ (Instr.tone).wellFormed = true ∧
      (Instr.reserved8F 7 0xFF).wellFormed = true := by decide

theorem witness_encode_of_decode :
    decode (.vector 0b010010110) = .ok (.hold true false 2 true true false) ∧
      decode (.selector 0b00011) = .ok .tone ∧ decode (.command 0xFFF) = .ok (.reserved8F 7 0xFF) := by decide

theorem witness_reachable_word :
    decode (.vector 0b001010111) = .ok (.long true true) ∧ (Instr.long true true).wellFormed = true ∧
      (Instr.long true true).isGate = false ∧ ∃ r ∈ opcodeTable, r.mnemonic = "LONG" := by decide

theorem witness_step_runs :
    configOk (txAt .data false 1 1).cfg = true ∧ (txAt .data false 1 1).input.rst = false ∧
      fetchWord (txAt .data false 1 1) = some (.selector 0b00011) ∧ decode (.selector 0b00011) = .ok .tone ∧
      Instr.tone.wellFormed = true := by decide

theorem witness_no_command :
    configOk (at_ cfg5 .host (quietInput true)).cfg = true ∧ (at_ cfg5 .host (quietInput true)).input.rst = false ∧
      (at_ cfg5 .host (quietInput true)).env.slot = .host ∧
      (at_ cfg5 .host (quietInput true)).input.cmdValid = false := by decide

theorem witness_reset_tick :
    configOk (at_ cfg5 .tx ⟨true, .level true, true, 0x300, 0⟩).cfg = true ∧
      (at_ cfg5 .tx ⟨true, .level true, true, 0x300, 0⟩).input.rst = true := by decide

theorem witness_bad_config : configOk (State.resetWith { cfg5 with rxEndPeriod := 65535 }).cfg = false := by decide

theorem witness_config_at_its_bound : configOk { cfg5 with rxEndPeriod := 65534 } = true := by decide

theorem witness_a_whole_tick :
    configOk (txAt .idle false 0 0).cfg = true ∧ (txAt .idle false 0 0).env.slot = .tx ∧
      (txAt .idle false 0 0).input.rst = false := by decide

theorem witness_memory_is_kept : oneEvent.mem.wf ∧ (after (step oneEvent)).isSome = true := by decide

theorem witness_widths : WidthsOk (txAt .data false 1 1) ∧ (after (step (txAt .data false 1 1))).isSome = true :=
  ⟨by constructor <;> decide, by decide⟩

theorem witness_tx_in_step_idle : TxInStep (txAt .idle false 0 0) ∧ (after (step (txAt .idle false 0 0))).isSome = true :=
  ⟨by constructor <;> decide, by decide⟩

theorem witness_tx_in_step_start :
    TxInStep (txAt .start true 10 0) ∧ (after (step (txAt .start true 10 0))).isSome = true :=
  ⟨by constructor <;> decide, by decide⟩

theorem witness_tx_in_step_data :
    TxInStep (txAt .data true 20 64) ∧ (after (step (txAt .data true 20 64))).isSome = true :=
  ⟨by constructor <;> decide, by decide⟩

theorem witness_tx_in_step_end :
    TxInStep (txAt .end_ false 150 64) ∧ (after (step (txAt .end_ false 150 64))).isSome = true :=
  ⟨by constructor <;> decide, by decide⟩

theorem witness_message_ok : oneEvent.mem.wf ∧ MessageOk oneEvent ∧ (after (step oneEvent)).isSome = true :=
  ⟨by decide, oneEvent_messageOk, by decide⟩

theorem witness_class_premise : (rxAt cfg5 true .data false 9 9).mem.wf := by decide

theorem witness_thold : 1 < (txAt .start true 2 0).tx.hold := by decide

theorem witness_commands :
    (cmdAt 0x24B).mem.wf ∧ (cmdAt 0x24B).tx.phase = .idle ∧ (cmdAt 0x24B).tx.len < (cmdAt 0x24B).cfg.txbufCap ∧
      (txAt .start true 9 0).tx.phase ≠ .idle := by decide

theorem witness_push_into_a_full_buffer :
    ((cmdAt 0x24B).setTx { (cmdAt 0x24B).tx with len := 255 }).cfg.txbufCap ≤
      ((cmdAt 0x24B).setTx { (cmdAt 0x24B).tx with len := 255 }).tx.len ∧
    ((cmdAt 0x24B).setTx { (cmdAt 0x24B).tx with len := 254 }).tx.len <
      ((cmdAt 0x24B).setTx { (cmdAt 0x24B).tx with len := 254 }).cfg.txbufCap := by decide

theorem witness_reserved_opcodes :
    (6 ≤ (6 : BitVec 4).toNat ∧ (6 : BitVec 4).toNat < 8) ∧ (6 ≤ (7 : BitVec 4).toNat ∧ (7 : BitVec 4).toNat < 8) ∧
      8 ≤ (8 : BitVec 4).toNat ∧ 8 ≤ (15 : BitVec 4).toNat := by decide

theorem witness_commands_leave_the_receiver :
    (Instr.txgo 0).isCommand = true ∧ (after (exec (.txgo 0) (cmdAt 0x300))).isSome = true := by decide

/-- `HOSTCMD` about to run in a tick of a transmission. -/
def busyAt (w : BitVec 12) : State := (cmdAt w).setTx ⟨.start, true, 9, 0, 1⟩

theorem witness_no_cancellation :
    (busyAt 0x100).env.slot = .host ∧ (busyAt 0x100).input.rst = false ∧ (busyAt 0x100).tx.phase ≠ .idle ∧
      (after (step (busyAt 0x100))).isSome = true := by decide

theorem witness_clear_and_pushes :
    (cmdAt 0x100).mem.wf ∧ (cmdAt 0x100).tx.phase = .idle ∧ ([0x4F, 0x00, 0x4B] : List Byte).length ≤
      (cmdAt 0x100).cfg.txbufCap := by decide

/-- Rule R112's boundary values for `u = 10`. -/
theorem witness_count_boundaries :
    2 * 4 < 10 ∧ (10 ≤ 2 * 5 ∧ 2 * 5 < 3 * 10) ∧ (10 ≤ 2 * 14 ∧ 2 * 14 < 3 * 10) ∧
      (3 * 10 ≤ 2 * 15 ∧ 2 * 15 < 5 * 10) ∧ (3 * 10 ≤ 2 * 24 ∧ 2 * 24 < 5 * 10) ∧ 5 * 10 ≤ 2 * 25 := by decide

theorem witness_length_law :
    (rxAt cfg5 true .data false 9 9).rx.skip = (rxAt cfg5 true .data false 9 9).cfg.rxStartBits ∧
      (rxAt cfg5 true .data false 9 9).rx.rxcnt = 0 ∧ (rxAt cfg5 true .data false 9 9).rx.bitcnt = 0 := by decide

theorem witness_line_bits :
    (rxAt cfg5 true .data false 9 9).mem.wf ∧ (rxAt cfg5 true .data false 9 9).rx.skip = 0 ∧
      exFrame.length ≤ (rxAt cfg5 true .data false 9 9).cfg.rxbufCap := by decide

/-- Each branch of `PUSHBIT`: a start bit, a bit of a byte, a completed byte, a completed byte on a full buffer. -/
theorem witness_push_bit :
    (∃ s : State, s.mem.wf ∧ 0 < s.rx.skip) ∧
      (∃ s : State, s.mem.wf ∧ s.rx.skip = 0 ∧ s.rx.bitcnt ≠ 7) ∧
      (∃ s : State, s.mem.wf ∧ s.rx.skip = 0 ∧ s.rx.bitcnt = 7 ∧ s.rx.rxcnt < s.cfg.rxbufCap) ∧
      (∃ s : State, s.mem.wf ∧ s.rx.skip = 0 ∧ s.rx.bitcnt = 7 ∧ s.cfg.rxbufCap ≤ s.rx.rxcnt) :=
  ⟨⟨oneEvent.setRx { oneEvent.rx with skip := 1 }, by decide⟩, ⟨oneEvent, by decide⟩,
    ⟨oneEvent.setRx { oneEvent.rx with bitcnt := 7, rxcnt := 261 }, by decide⟩,
    ⟨oneEvent.setRx { oneEvent.rx with bitcnt := 7, rxcnt := 262 }, by decide⟩⟩

theorem witness_frame_layout :
    configOk Config.testT = true ∧ ([] : List Byte).length ≤ Config.testT.txbufCap ∧
      ([0x4F, 0x4B] : List Byte).length ≤ Config.testT.txbufCap := by decide

theorem witness_minima :
    2 ≤ 2 ∧ 2 + 3 ≤ (captured exFrame).rx.cwcnt ∧ ((captured exFrame).mem.readCw 2).level = true ∧
      3 + 3 ≤ (captured exFrame).rx.cwcnt ∧ ((captured exFrame).mem.readCw 3).level = false := by decide

theorem witness_short_message :
    ((captured exFrame).setRx { (captured exFrame).rx with cwcnt := 5 }).rx.cwcnt < 6 := by decide

/-- Counts of 1, and a count of 3, against given minima; a window with clear timing and one without. -/
theorem witness_min_mode :
    (∀ k, k < (captured exFrame).rx.cwcnt →
      cnt ((captured exFrame).mem.readCw k).dur (if ((captured exFrame).mem.readCw k).level then 10 else 5) = 1 ∨
      cnt ((captured exFrame).mem.readCw k).dur (if ((captured exFrame).mem.readCw k).level then 10 else 5) = 2) ∧
    (0 < (captured exFrame).rx.cwcnt ∧
      cnt ((captured exFrame).mem.readCw 0).dur (if ((captured exFrame).mem.readCw 0).level then 4 else 5) = 3) ∧
    timingClear (captured exFrame) ∧
    ¬ timingClear ((captured exFrame).setRx { (captured exFrame).rx with cwcnt := 5 }) := by
  decide

/-- Each cause bit posted once, on the finished message of vector F1 with one thing changed; `SUBREJ` and the others
only where their own condition holds. -/
theorem witness_cause_bits :
    let s := captured exFrame
    (after (exec (.gate 0) (s.setRx { s.rx with cwcnt := 5 }))).map (·.res.cause) = some 0b00001 ∧
    (after (exec (.gate 0) { s with cfg := { s.cfg with rxRejectPeriod := 11 } })).map (·.res.cause) = some 0b00010 ∧
    (after (exec (.gate 0) (s.setRx { s.rx with bad := true }))).map (·.res.cause) = some 0b00100 ∧
    (after (exec (.gate 0) (s.setRx { s.rx with cwovf := true }))).map (·.res.cause) = some 0b01000 ∧
    (after (exec (.gate 0) (captured [0, 0]))).map (·.res.cause) = some 0b10000 ∧
    (after (exec (.gate 0) (captured []))).map (·.res.cause) = some 0 := by decide

/-- A finished `MIN` message of the example frame, start pulse first, the window not yet decoded. -/
def capturedMin : State :=
  let s := at_ { Config.testT with decodeMode := .min, rxStartBits := 1 } .rx (quietInput false)
  let runs := waveRuns 10 10 exFrame
  (s.setMem { s.mem with cw := runs.mapIdx fun k r => (k, ⟨k, r.1, r.2⟩) }).setRx
    { s.rx with phase := .data, level := false, elapsed := 100, unit := 9, cwcnt := runs.length }

theorem witness_subrej : configOk (captured exFrame).cfg = true ∧ MessageOk (captured exFrame) :=
  ⟨by decide, captured_messageOk⟩

/-- Too short; a wrong signature; a length field not captured, and just captured; one byte short, and just enough. -/
theorem witness_first_failing_check :
    (captured [0x63, 0xF9, 0x5C]).rx.rxcnt < (captured [0x63, 0xF9, 0x5C]).cfg.minRxBytes ∧
    ((captured [0x63, 0xF9, 0x5C, 0x1C]).cfg.minRxBytes ≤ (captured [0x63, 0xF9, 0x5C, 0x1C]).rx.rxcnt ∧
      sigOk (captured [0x63, 0xF9, 0x5C, 0x1C]) = false) ∧
    (sigOk (captured [0x63, 0xF9, 0x5C, 0x1B]) = true ∧
      (captured [0x63, 0xF9, 0x5C, 0x1B]).rx.rxcnt < payloadAt Config.testT) ∧
    payloadAt Config.testT ≤ (captured [0x63, 0xF9, 0x5C, 0x1B, 0x02]).rx.rxcnt ∧
    (sigOk (captured [0x63, 0xF9, 0x5C, 0x1B, 0x02, 0x8A, 0x4C]) = true ∧
      (captured [0x63, 0xF9, 0x5C, 0x1B, 0x02, 0x8A, 0x4C]).rx.rxcnt <
        payloadAt Config.testT + rxLenField (captured [0x63, 0xF9, 0x5C, 0x1B, 0x02, 0x8A, 0x4C]) + 1) ∧
    (sigOk (captured exFrame) = true ∧
      payloadAt Config.testT + rxLenField (captured exFrame) + 1 ≤ (captured exFrame).rx.rxcnt) := by decide

theorem witness_wrong_signature :
    (captured [0x63, 0xF9, 0x5C]).rx.rxcnt ≤ 3 ∧
      (captured [0x63, 0xF9, 0x5C, 0x1C]).mem.readRxbuf 3 ≠ sig.getD 3 0 ∧
      (captured [0x63, 0xF9, 0x5C, 0x1C]).cfg.minRxBytes ≤ (captured [0x63, 0xF9, 0x5C, 0x1C]).rx.rxcnt := by decide

theorem witness_single_byte_change : ∃ (s t : State) (k : Nat), t.cfg = s.cfg ∧ t.rx.rxcnt = s.rx.rxcnt ∧
    verdict s 0 = .ok ∧ payloadAt s.cfg ≤ k ∧ k < payloadAt s.cfg + rxLenField s ∧
    t.mem.readRxbuf k ≠ s.mem.readRxbuf k ∧ (∀ i, i ≠ k → t.mem.readRxbuf i = s.mem.readRxbuf i) :=
  ⟨captured exFrame, (captured exFrame).setMem ((captured exFrame).mem.writeRxbuf 6 0x4D), 6, by decide, by decide,
    by decide, by decide, by decide, by decide, fun _ hi => readRxbuf_writeRxbuf_other _ _ hi⟩

theorem witness_captured_frame :
    configOk (captured exFrame).cfg = true ∧ (captured exFrame).mem.wf ∧
    ([0x4F, 0x4B] : List Byte).length < 2 ^ (8 * (captured exFrame).cfg.lenBytes.toNat) ∧
    frameOf (captured exFrame).cfg [0x4F, 0x4B] = exFrame ∧
    exFrame.length ≤ (framerView (captured exFrame)).rx.rxcnt ∧
    (captured exFrame).cfg.minRxBytes ≤ (framerView (captured exFrame)).rx.rxcnt ∧
    (∀ i, i < exFrame.length → (framerView (captured exFrame)).mem.readRxbuf i = exFrame.getD i 0) ∧
    (framerView (captured exFrame)).rx.bad = false ∧ timingClear (captured exFrame) := by
  decide

theorem capturedMin_timing : timingClear capturedMin := by decide +kernel

theorem capturedMin_bytes : (framerView capturedMin).rx.rxcnt = 8 ∧ (framerView capturedMin).rx.bad = false ∧
    ∀ i, i < exFrame.length → (framerView capturedMin).mem.readRxbuf i = exFrame.getD i 0 := by decide +kernel

theorem witness_captured_frame_min :
    configOk capturedMin.cfg = true ∧ capturedMin.mem.wf ∧ capturedMin.cfg.decodeMode = .min ∧
    ([0x4F, 0x4B] : List Byte).length < 2 ^ (8 * capturedMin.cfg.lenBytes.toNat) ∧
    frameOf capturedMin.cfg [0x4F, 0x4B] = exFrame ∧ capturedMin.cfg.minRxBytes ≤ 8 := by decide +kernel

theorem witness_read_port :
    (1 : BitVec 16).toNat < ((captured exFrame).setRes { (captured exFrame).res with len := 2 }).res.len ∧
      ((captured exFrame).setRes { (captured exFrame).res with len := 2 }).res.len ≤ (2 : BitVec 16).toNat := by decide

theorem witness_results_unchanged :
    (after (step (rxAt cfg5 false .idle false 7 0))).isSome = true ∧
      (rxAt cfg5 false .idle false 7 0).input.rst = false ∧
      selected (rxAt cfg5 false .idle false 7 0) = some "HOLD" := by decide

/-- The tick of vector H3: the acknowledgement comes in the tick in which the gate fires. -/
def ackAt : State := (captured exFrame).setEnv
  ⟨.tx, [⟨false, .level false, true, commandWord 0x4 0, 0⟩], 0, false⟩

theorem witness_acknowledge :
    ackAt.input.cmdValid = true ∧ ackAt.input.cmd = commandWord 0x4 0 ∧ ackAt.rx.phase ≠ .idle ∧
      ackAt.cfg.rxEndPeriod < ackAt.diff := by decide

theorem witness_same_visible : ∃ s t : State, s ≠ t ∧ s.mem.wf ∧ t.mem.wf ∧ SameVisible s t ∧
    (after (step s)).isSome = true :=
  ⟨captured exFrame, (captured exFrame).setMem ((captured exFrame).mem.writeRxbuf 8 0xAA), by decide, by decide,
    by decide, by constructor <;> decide, by decide⟩

theorem witness_interval : ∃ (s : State) (d : Nat), configOk s.cfg = true ∧ s.mem.wf ∧ s.rx.phase ≠ .idle ∧
    s.rx.elapsed = 0 ∧ 1 ≤ d ∧ s.cfg.rxRejectPeriod ≤ d ∧ d ≤ s.cfg.rxEndPeriod ∧ s.rx.cwcnt < s.cfg.cwCap :=
  ⟨oneEvent.setRx { oneEvent.rx with elapsed := 0 }, 5, by decide⟩

theorem witness_interval_at_the_gate : ∃ (s : State) (d : Nat), configOk s.cfg = true ∧ s.mem.wf ∧
    s.rx.phase ≠ .idle ∧ s.rx.elapsed = 0 ∧ 1 ≤ d ∧ s.cfg.rxRejectPeriod ≤ d ∧ d ≤ s.cfg.rxEndPeriod :=
  ⟨rxAt cfg5 true .start true 0 0, 100, by decide⟩

theorem witness_silence : ∃ (s : State) (k : Nat), configOk s.cfg = true ∧ s.rx.phase ≠ .idle ∧ s.rx.elapsed = 0 ∧
    k ≤ s.cfg.rxEndPeriod := ⟨rxAt cfg5 true .start true 0 0, 100, by decide⟩

theorem witness_early_change : ∃ (s : State) (k : Nat), configOk s.cfg = true ∧
    s.rx.elapsed < s.cfg.rxRejectPeriod ∧ s.rx.elapsed + k < s.cfg.rxRejectPeriod :=
  ⟨rxAt cfg5 true .data true 0 9, 4, by decide⟩

/-- An idle receiver, and the payload, pulse and unit of section 2.6's transmission. -/
theorem witness_wave : ∃ (s : State) (p : List Byte) (pulse unit : Nat), configOk s.cfg = true ∧ s.mem.wf ∧
    MessageOk s ∧ s.cfg.decodeMode = .cal ∧ s.cfg.rxStartBits = 0 ∧ s.rx.phase = .idle ∧ s.rx.level = false ∧
    s.cfg.rxRejectPeriod ≤ s.diff ∧ p.length < 2 ^ (8 * s.cfg.lenBytes.toNat) ∧
    (frameOf s.cfg p).length ≤ s.cfg.rxbufCap ∧ 8 * (frameOf s.cfg p).length + 1 ≤ s.cfg.cwCap ∧
    s.cfg.minRxBytes ≤ (frameOf s.cfg p).length ∧ 1 ≤ unit ∧ s.cfg.rxRejectPeriod ≤ unit ∧
    2 * unit ≤ s.cfg.rxEndPeriod ∧ 1 ≤ pulse ∧ s.cfg.rxRejectPeriod ≤ pulse ∧ pulse ≤ s.cfg.rxEndPeriod ∧
    4 * unit < 5 * (9 * pulse / 10) ∧ 3 * (9 * pulse / 10) ≤ 4 * unit :=
  ⟨rxAt Config.testT false .idle false 50 0, [0x4F, 0x4B], 10, 10, by decide, by decide,
    idle_messageOk, by decide⟩

/-- The same transmission into a receiver of vector W1's configuration. -/
theorem witness_wave_min : ∃ (s : State) (p : List Byte) (pulse unit : Nat), configOk s.cfg = true ∧ s.mem.wf ∧
    MessageOk s ∧ s.cfg.decodeMode = .min ∧ s.cfg.rxStartBits = 1 ∧ s.rx.phase = .idle ∧ s.rx.level = false ∧
    s.cfg.rxRejectPeriod ≤ s.diff ∧ p.length < 2 ^ (8 * s.cfg.lenBytes.toNat) ∧
    (frameOf s.cfg p).length ≤ s.cfg.rxbufCap ∧ 8 * (frameOf s.cfg p).length + 1 ≤ s.cfg.cwCap ∧
    s.cfg.minRxBytes ≤ (frameOf s.cfg p).length ∧ 1 ≤ unit ∧ s.cfg.rxRejectPeriod ≤ unit ∧
    2 * unit ≤ s.cfg.rxEndPeriod ∧ s.cfg.rxRejectPeriod ≤ pulse ∧ pulse ≤ s.cfg.rxEndPeriod ∧
    unit ≤ 2 * pulse ∧ 2 * pulse < 5 * unit :=
  ⟨rxAt { Config.testT with decodeMode := .min, rxStartBits := 1 } false .idle false 50 0, [0x4F, 0x4B], 24, 10,
    by decide, by decide, ⟨by decide, alternate_of _ (by decide), by decide, by decide, by decide⟩, by decide⟩

theorem witness_transmission :
    configOk (cmdAt 0x300).cfg = true ∧ (cmdAt 0x300).tx.phase = .idle ∧
      startPulse (cmdAt 0x300).cfg = 10 := by decide

theorem witness_frame_in_flight :
    (busyAt 0x200).input.rst = false ∧ (busyAt 0x200).tx.phase ≠ .idle ∧
      (after (step (busyAt 0x200))).isSome = true := by decide

end Sys2Proof.Tests
end

section
/-!
PROOFS. The state an instruction leaves: `exec` always answers one (no instruction's meaning faults or refuses), and
each instruction's is written down once. What `HOSTCMD` with no command, a tick with `rst = 1` and a decoded
instruction make of a step follows from that.
-/

namespace Sys2Proof.Machine

/-- The state `exec` answers. -/
def effect (i : Instr) (s : State) : State :=
  match exec i s with
  | .next t => t
  | .fault _ => s
  | .refused _ => s

section Effect

variable (s : State)

@[simp] theorem effect_gate (v : BitVec 8) :
    effect (.gate v) s = (finalize s).setRx { (finalize s).rx with phase := .idle } := rfl
@[simp] theorem effect_hold (m j : Bool) (pp : BitVec 2) (a b c : Bool) :
    effect (.hold m j pp a b c) s = passTime s := rfl
@[simp] theorem effect_noise (m : Bool) (pp : BitVec 2) (a b c : Bool) :
    effect (.noise m pp a b c) s = passTime s := rfl
@[simp] theorem effect_first (m a b c : Bool) :
    effect (.first m a b c) s = (accept s).setRx { (accept s).rx with unit := 0, phase := .start } := rfl
@[simp] theorem effect_calib (m a b c : Bool) :
    effect (.calib m a b c) s = (accept (record s.rx.level s.diff s)).setRx
      { (accept (record s.rx.level s.diff s)).rx with unit := 9 * s.diff / 10, phase := .data } := rfl
@[simp] theorem effect_runt (b : Bool) :
    effect (.runt b) s = markBad (accept (record s.rx.level s.diff s)) := rfl
@[simp] theorem effect_zero : effect .zero s = pushBit false (accept (record s.rx.level s.diff s)) := rfl
@[simp] theorem effect_one : effect .one s = pushBit true (accept (record s.rx.level s.diff s)) := rfl
@[simp] theorem effect_long (a b : Bool) :
    effect (.long a b) s = markBad (accept (record s.rx.level s.diff s)) := rfl
@[simp] theorem effect_recOnly (a b c : Bool) :
    effect (.recOnly a b c) s = accept (record s.rx.level s.diff s) := rfl
@[simp] theorem effect_tidle (h e r bt : Bool) : effect (.tidle h e r bt) s = s := rfl
@[simp] theorem effect_thold (e r bt : Bool) :
    effect (.thold e r bt) s = s.setTx { s.tx with hold := s.tx.hold - 1 } := rfl
@[simp] theorem effect_tzero : effect .tzero s = sendBit s.cfg.txUnitPeriod s := rfl
@[simp] theorem effect_tone : effect .tone s = sendBit (2 * s.cfg.txUnitPeriod) s := rfl
@[simp] theorem effect_tend (bt : Bool) :
    effect (.tend bt) s = s.setTx { s.tx with level := false, hold := s.cfg.txEndPeriod, phase := .end_ } := rfl
@[simp] theorem effect_tdone (r bt : Bool) :
    effect (.tdone r bt) s = s.setTx { s.tx with phase := .idle, hold := 0 } := rfl
@[simp] theorem effect_nop (arg : Byte) : effect (.nop arg) s = s := rfl
@[simp] theorem effect_txclr (arg : Byte) : effect (.txclr arg) s =
    if s.tx.phase = .idle then s.setTx { s.tx with len := 0 } else refuseCmd s := by
  by_cases h : s.tx.phase = .idle <;> simp [effect, exec, execTxclr, h]
@[simp] theorem effect_txpush (arg : Byte) : effect (.txpush arg) s =
    if s.tx.phase = .idle ∧ s.tx.len < s.cfg.txbufCap then
      (s.setMem (s.mem.writeTxbuf s.tx.len arg)).setTx { s.tx with len := s.tx.len + 1 }
    else refuseCmd s := by
  by_cases h : s.tx.phase = .idle ∧ s.tx.len < s.cfg.txbufCap
  · simp only [effect, exec, execTxpush, if_pos h]
  · simp only [effect, exec, execTxpush, if_neg h]
@[simp] theorem effect_txgo (arg : Byte) : effect (.txgo arg) s =
    if s.tx.phase = .idle then startTx s else refuseCmd s := by
  by_cases h : s.tx.phase = .idle <;> simp [effect, exec, execTxgo, h]
@[simp] theorem effect_rxack (arg : Byte) : effect (.rxack arg) s = acknowledge s := rfl
@[simp] theorem effect_errclr (arg : Byte) : effect (.errclr arg) s = s.setCmdErr false := rfl
@[simp] theorem effect_reserved67 (lo : Bool) (arg : Byte) : effect (.reserved67 lo arg) s = refuseCmd s := rfl
@[simp] theorem effect_reserved8F (lo : BitVec 3) (arg : Byte) : effect (.reserved8F lo arg) s = refuseCmd s := rfl

end Effect

/-- Every instruction answers a next state, in every state. -/
theorem exec_eq_effect (i : Instr) (s : State) : exec i s = .next (effect i s) := by
  cases i with
  | txclr arg => simp only [effect_txclr, exec, execTxclr]; split <;> rfl
  | txpush arg => simp only [effect_txpush, exec, execTxpush]; split <;> rfl
  | txgo arg => simp only [effect_txgo, exec, execTxgo]; split <;> rfl
  | _ => rfl

/-- No instruction writes the configuration (R255). -/
@[simp] theorem effect_cfg (i : Instr) (s : State) : (effect i s).cfg = s.cfg := by
  cases i with
  | txclr arg => rw [effect_txclr]; split <;> rfl
  | txpush arg => rw [effect_txpush]; split <;> rfl
  | txgo arg => rw [effect_txgo]; split <;> rfl
  | _ => simp

/-- No instruction writes the model's own fields. -/
@[simp] theorem effect_env (i : Instr) (s : State) : (effect i s).env = s.env := by
  cases i with
  | txclr arg => rw [effect_txclr]; split <;> rfl
  | txpush arg => rw [effect_txpush]; split <;> rfl
  | txgo arg => rw [effect_txgo]; split <;> rfl
  | _ => simp

/-- Outside reset a step whose word decodes to a well-formed instruction is that instruction's effect and the move to
the tick's next operation. -/
theorem step_of_decode {s : State} {w : Word} {i : Instr} (hc : configOk s.cfg = true) (hr : s.input.rst = false)
    (hf : fetchWord s = some w) (hd : decode w = .ok i) (hw : i.wellFormed = true) :
    step s = .next (advance i.isGate (effect i s)) := by
  simp [step, hc, hr, hf, runWord, hd, hw, runInstr, exec_eq_effect]

/-- `HOSTCMD` with no command only goes on (R200). -/
theorem step_of_no_word {s : State} (hc : configOk s.cfg = true) (hr : s.input.rst = false)
    (hf : fetchWord s = none) : step s = .next (advance false s) := by
  simp [step, hc, hr, hf]

/-- A tick with `rst = 1` (R250). -/
theorem step_of_reset {s : State} (hc : configOk s.cfg = true) (hr : s.input.rst = true) :
    step s = .next (resetTick s) := by
  simp [step, hc, hr]

/-- `step_cases` with the effect in place of `exec`'s answer. -/
theorem step_effect_cases {s t : State} (h : step s = .next t) :
    configOk s.cfg = true ∧
    ((s.input.rst = true ∧ t = resetTick s) ∨
     (s.input.rst = false ∧ fetchWord s = none ∧ t = advance false s) ∨
     (s.input.rst = false ∧ ∃ w i, fetchWord s = some w ∧ decode w = .ok i ∧ i.wellFormed = true ∧
        t = advance i.isGate (effect i s))) := by
  obtain ⟨hc, ⟨hr, ht⟩ | ⟨hr, hf, ht⟩ | ⟨hr, w, i, u, hf, hd, hw, hu, ht⟩⟩ := step_cases h
  · exact ⟨hc, .inl ⟨hr, ht⟩⟩
  · exact ⟨hc, .inr (.inl ⟨hr, hf, ht⟩)⟩
  · obtain rfl : effect i s = u := by simpa [exec_eq_effect] using hu
    exact ⟨hc, .inr (.inr ⟨hr, w, i, hf, hd, hw, ht⟩)⟩

/-- What moving on does to the model's own fields (R8, R72, R91). -/
theorem advance_env (g : Bool) (s : State) : (advance g s).env =
    (match s.env.slot with
    | .tx => { s.env with slot := .host }
    | .host => { s.env with slot := .rx }
    | .rx => if g then s.env else (nextTick s).env) := by
  unfold advance
  cases s.env.slot with
  | tx => rfl
  | host => rfl
  | rx => cases g <;> rfl

/-- Settles O5: `exec` answers `effect`, which `step` hands to `advance`. -/
theorem stepRunsDecodedInstruction : Obligations.StepRunsDecodedInstruction := by
  intro s w i hc hr hf hd hw
  refine ⟨effect i s, exec_eq_effect i s, step_of_decode hc hr hf hd hw, advance_cfg .., advance_rx ..,
    advance_res .., advance_tx .., advance_cmdErr .., advance_mem .., ?_⟩
  have he := advance_env i.isGate (effect i s)
  rw [effect_env] at he
  exact he

/-- Settles O8: the configuration is checked before anything else. -/
theorem badConfigIsRefused : Obligations.BadConfigIsRefused := by
  intro s h
  simp [step, h]

/-- `RXPAY[rd_addr]` as stored, below `RXLEN` (R71). -/
theorem rdData_below {s : State} {a : BitVec 16} (h : a.toNat < s.res.len) :
    rdData s a = s.mem.readRxpay a.toNat := by simp [rdData, State.payByte, h]

/-- `0x00` at and beyond `RXLEN` (R71). -/
theorem rdData_beyond {s : State} {a : BitVec 16} (h : s.res.len ≤ a.toNat) : rdData s a = 0 := by
  simp [rdData, Nat.not_lt.mpr h]

/-- Code 7 is never produced (R220). -/
theorem statusCode_ne_seven (st : RxStatus) : st.code ≠ 7 := by cases st <;> decide

/-- Settles O50: the ports are the registers by definition; what has content is the read port, `tx_busy` and the
codes. -/
theorem readPortHidesTheRest : Obligations.ReadPortHidesTheRest := by
  refine ⟨fun s a => ⟨rdData_below, rdData_beyond, rfl, rfl, ?_, rfl, rfl, rfl, rfl, rfl, rfl, rfl, rfl, rfl, rfl⟩,
    rfl, rfl, rfl, rfl, rfl, rfl, rfl, statusCode_ne_seven⟩
  simp [outputsAt, txBusy]

end Sys2Proof.Machine
end

section
/-!
PROOFS. The words the machine forms and what they decode to: the tables of rules R91, R94 and R97 as one conditional
each over the bits of the word.
-/

namespace Sys2Proof.Machine

/-- Rule R94's table over the selector's bits. -/
theorem decodeSelector_selectorOf (i h e r bt : Bool) : decodeSelector (selectorOf i h e r bt) =
    if i then .tidle h e r bt
    else if h then .thold e r bt
    else if e then .tdone r bt
    else if r then (if bt then .tone else .tzero)
    else .tend bt := by
  revert i h e r bt; decide

section VectorBits

variable (g m x j : Bool) (pp : BitVec 2) (a b c : Bool)

/-- The vector's bits are where rule R90 puts them. -/
theorem vectorOf_fields :
    (vectorOf g m x j pp a b c).getLsbD 8 = g ∧ (vectorOf g m x j pp a b c).getLsbD 7 = m ∧
    (vectorOf g m x j pp a b c).getLsbD 6 = x ∧ (vectorOf g m x j pp a b c).getLsbD 5 = j ∧
    (vectorOf g m x j pp a b c).extractLsb' 3 2 = pp ∧ (vectorOf g m x j pp a b c).getLsbD 2 = a ∧
    (vectorOf g m x j pp a b c).getLsbD 1 = b ∧ (vectorOf g m x j pp a b c).getLsbD 0 = c := by
  revert g m x j pp a b c; decide

/-- Rule R91's table over the vector's bits, `GATE` first. -/
theorem decodeVector_vectorOf : decodeVector (vectorOf g m x j pp a b c) =
    if g then .ok (.gate ((vectorOf g m x j pp a b c).extractLsb' 0 8))
    else if !x then .ok (.hold m j pp a b c)
    else if j then .ok (.noise m pp a b c)
    else if pp = 0 then .ok (.first m a b c)
    else if pp = 1 then .ok (.calib m a b c)
    else if pp = 2 then
      if m then .ok (.recOnly a b c)
      else if c then .ok (.long a b)
      else if !a then .ok (.runt b)
      else if !b then .ok .zero
      else .ok .one
    else .error .unreachablePhase := by
  simp only [decodeVector, vectorOf_fields]

end VectorBits

/-- A command word decodes to a command. -/
theorem decodeCommand_isCommand (c : BitVec 12) : (decodeCommand c).isCommand = true := by
  simp only [decodeCommand]
  split_ifs <;> rfl

/-- A vector decodes to an interval class, never to an action that sends a bit. -/
theorem decodeVector_sends_no_bit : ∀ v : BitVec 9, decodeVector v ≠ .ok .tzero ∧ decodeVector v ≠ .ok .tone := by
  decide

/-- `TZERO` and `TONE` are selected only while a frame bit remains (R94). -/
theorem bitRemains_of_sends {s : State} {w : Word} {i : Instr} (hf : fetchWord s = some w) (hd : decode w = .ok i)
    (hi : i = .tzero ∨ i = .tone) : s.tx.idx < 8 * s.flen := by
  unfold fetchWord at hf
  split at hf
  · obtain rfl := Option.some.inj hf
    have hd : decodeSelector (txSelector s) = i := Except.ok.inj hd
    rw [txSelector, decodeSelector_selectorOf] at hd
    by_contra hn
    have hr : flagR s = false := by simpa [flagR] using hn
    simp only [hr, Bool.false_eq_true, if_false] at hd
    rcases hi with rfl | rfl <;> split_ifs at hd
  · split_ifs at hf
    obtain rfl := Option.some.inj hf
    have hd : decodeCommand s.input.cmd = i := Except.ok.inj hd
    have hc := decodeCommand_isCommand s.input.cmd
    rw [hd] at hc
    rcases hi with rfl | rfl <;> cases hc
  · obtain rfl := Option.some.inj hf
    obtain ⟨h0, h1⟩ := decodeVector_sends_no_bit (rxVector s)
    rcases hi with rfl | rfl
    · exact absurd hd h0
    · exact absurd hd h1

end Sys2Proof.Machine
end

section
/-!
PROOFS. Every register stays within its width: the bounds of `WidthsOk` path by path (receive path, result registers,
transmit path), each kept by the operations that write that path.
-/

namespace Sys2Proof.Machine

/-- The bounds of `WidthsOk` on the receive path (R24, R25, R32 to R34). -/
structure RxFits (s : State) : Prop where
  elapsed : s.rx.elapsed < 2 ^ s.cfg.tw
  unit : s.rx.unit < 2 ^ s.cfg.tw
  rxcnt : s.rx.rxcnt ≤ s.cfg.rxbufCap
  skip : s.rx.skip ≤ s.cfg.rxStartBits
  cwcnt : s.rx.cwcnt ≤ s.cfg.cwCap

/-- The bounds of `WidthsOk` on the result registers (R42, R44, R45). -/
structure ResFits (s : State) : Prop where
  len : s.res.len < 2 ^ (8 * s.cfg.lenBytes.toNat)
  lenCap : s.res.len ≤ s.cfg.rxbufCap
  nbytes : s.res.nbytes ≤ s.cfg.rxbufCap
  minLow : s.res.minLow ≤ s.cfg.rxEndPeriod
  minHigh : s.res.minHigh ≤ s.cfg.rxEndPeriod

/-- The bounds of `WidthsOk` on the transmit path (R52 to R54). -/
structure TxFits (s : State) : Prop where
  hold : s.tx.hold < 2 ^ s.cfg.tw
  txlen : s.tx.len ≤ s.cfg.txbufCap
  idx : s.tx.idx ≤ 8 * (4 + s.cfg.lenBytes.toNat + s.cfg.txbufCap + 1)

theorem widthsOk_iff (s : State) : WidthsOk s ↔ RxFits s ∧ ResFits s ∧ TxFits s :=
  ⟨fun h => ⟨{ h with }, { h with }, { h with }⟩, fun ⟨hx, hr, ht⟩ => { hx, hr, ht with }⟩

theorem widthsOk_resetTick (s : State) : WidthsOk (resetTick s) where
  elapsed := Nat.two_pow_pos _
  unit := Nat.two_pow_pos _
  rxcnt := Nat.zero_le _
  skip := Nat.le_refl _
  cwcnt := Nat.zero_le _
  len := Nat.two_pow_pos _
  lenCap := Nat.zero_le _
  nbytes := Nat.zero_le _
  minLow := Nat.le_refl _
  minHigh := Nat.le_refl _
  hold := Nat.two_pow_pos _
  txlen := Nat.zero_le _
  idx := Nat.zero_le _

theorem widthsOk_advance (g : Bool) {s : State} (h : WidthsOk s) : WidthsOk (advance g s) := by
  unfold advance
  split
  · exact { h with }
  · exact { h with }
  · split
    · exact h
    · exact { h with }

/-- What rule R6 says of the hold times: each fits `TXHOLD`. -/
theorem configOk_holds {c : Config} (h : configOk c = true) :
    c.txUnitPeriod < 2 ^ c.tw ∧ 2 * c.txUnitPeriod < 2 ^ c.tw ∧ startPulse c < 2 ^ c.tw ∧ c.txEndPeriod < 2 ^ c.tw := by
  simp only [configOk, Bool.and_eq_true, decide_eq_true_eq] at h
  obtain ⟨⟨⟨-, -, hunit⟩, -, hstart⟩, -, hend⟩ := h
  exact ⟨by omega, hunit, hstart, hend⟩

/-- `diff` fits `ELAPSED`: it saturates (R11, R24). -/
theorem diff_lt (s : State) : s.diff < 2 ^ s.cfg.tw := by
  have hle : s.diff ≤ 2 ^ s.cfg.tw - 1 := satInc_le s.cfg s.rx.elapsed
  have hpos := Nat.two_pow_pos s.cfg.tw
  omega

section Receiver

variable {s : State}

theorem rxFits_passTime (h : RxFits s) : RxFits (passTime s) := { h with elapsed := diff_lt s }

theorem rxFits_accept (h : RxFits s) : RxFits (accept s) := { h with elapsed := Nat.two_pow_pos _ }

theorem rxFits_markBad (h : RxFits s) : RxFits (markBad s) := { h with }

theorem rxFits_close (h : RxFits s) : RxFits (s.setRx { s.rx with phase := .idle }) := { h with }

theorem rxFits_record (l : Level) (d : Nat) (h : RxFits s) : RxFits (record l d s) := by
  rcases record_cases l d s with ⟨hroom, e⟩ | ⟨-, e⟩ <;> rw [e]
  · exact { h with cwcnt := hroom }
  · exact { h with }

theorem rxFits_pushBit (b : Bool) (h : RxFits s) : RxFits (pushBit b s) := by
  rcases pushBit_cases b s with ⟨-, e⟩ | ⟨-, -, hroom, e⟩ | ⟨-, -, -, e⟩ | ⟨-, -, e⟩ <;> rw [e]
  · exact { h with skip := (Nat.sub_le _ _).trans h.skip }
  · exact { h with rxcnt := hroom }
  · exact { h with }
  · exact { h with }

theorem rxFits_symbol (d u : Nat) (h : RxFits s) : RxFits (symbol d u s) := by
  rcases symbol_cases d u s with ⟨-, e⟩ | ⟨-, e⟩ | ⟨-, -, e⟩ <;> rw [e]
  · exact rxFits_pushBit _ h
  · exact rxFits_pushBit _ h
  · exact rxFits_markBad h

theorem rxFits_framerView (h : RxFits s) : RxFits (framerView s) := by
  unfold framerView
  split
  · exact foldl_preserves _ RxFits (fun _ _ ht => rxFits_symbol _ _ ht) _ s h
  · exact h

theorem rxFits_finalize (h : RxFits s) : RxFits (finalize s) where
  elapsed := by simpa using h.elapsed
  unit := by simpa using h.unit
  rxcnt := by simp
  skip := by simp
  cwcnt := by simp

/-- Every instruction keeps the receive path within its widths. -/
theorem rxFits_effect (i : Instr) (h : RxFits s) : RxFits (effect i s) := by
  have haccept : RxFits (accept (record s.rx.level s.diff s)) := rxFits_accept (rxFits_record _ _ h)
  cases i with
  | gate v => exact rxFits_close (rxFits_finalize h)
  | hold | noise => exact rxFits_passTime h
  | first m a b c => exact { rxFits_accept h with unit := Nat.two_pow_pos _ }
  | calib m a b c =>
    have hunit : 9 * s.diff / 10 < 2 ^ s.cfg.tw := by have := diff_lt s; omega
    exact { haccept with unit := by simpa using hunit }
  | runt | long => exact rxFits_markBad haccept
  | zero | one => exact rxFits_pushBit _ haccept
  | recOnly a b c => exact haccept
  | txclr | txpush | txgo => simp only [effect_txclr, effect_txpush, effect_txgo]; split <;> exact { h with }
  | _ => exact { h with }

end Receiver

section Results

variable {s : State}

theorem resFits_setRx (r : RxPath) (h : ResFits s) : ResFits (s.setRx r) := { h with }

/-- A minimum never exceeds `RX_END_PERIOD` (R151). -/
theorem windowMin_le (s : State) (l : Level) : windowMin s l ≤ s.cfg.rxEndPeriod := by
  refine foldl_preserves _ (fun m : Nat => m ≤ s.cfg.rxEndPeriod) (fun m k hm => ?_) _ _ (Nat.le_refl _)
  split
  · exact (Nat.min_le_left _ _).trans hm
  · exact hm

/-- The length field is `LEN_BYTES` bytes long (R157). -/
theorem rxLenField_lt (s : State) : rxLenField s < 2 ^ (8 * s.cfg.lenBytes.toNat) := by
  unfold rxLenField
  have h4 := (s.rxByte 4).isLt
  have h5 := (s.rxByte 5).isLt
  cases s.cfg.lenBytes <;> simp only [LenBytes.toNat] <;> omega

/-- Every framer check of an `OK` message passed (R150, R156 to R159). -/
theorem verdict_ok {c : BitVec 5} (h : verdict s c = .ok) :
    c = 0 ∧ s.cfg.minRxBytes ≤ s.rx.rxcnt ∧ sigOk s = true ∧ payloadAt s.cfg + rxLenField s + 1 ≤ s.rx.rxcnt ∧
      xorFold (wirePayload s (rxLenField s)) = s.rxByte (payloadAt s.cfg + rxLenField s) := by
  unfold verdict at h
  split_ifs at h with hc hmin hsig hhead hlen hsum
  exact ⟨not_not.mp hc, by omega, by simpa using hsig, by omega, not_not.mp hsum⟩

/-- What a conclusion posts fits the result registers: an `OK` message's length and bytes lie within `RXBUF`. -/
theorem resFits_conclude {lo hi : Nat} (c : BitVec 5) (h : RxFits s) (hlo : lo ≤ s.cfg.rxEndPeriod)
    (hhi : hi ≤ s.cfg.rxEndPeriod) : ResFits (conclude lo hi c s) := by
  have hlen : verdict s c = .ok → rxLenField s ≤ s.cfg.rxbufCap := fun hok => by
    obtain ⟨-, -, -, hbytes, -⟩ := verdict_ok hok
    have := h.rxcnt
    omega
  constructor <;> rw [conclude_res, conclude_cfg] <;> dsimp only
  · split
    · exact rxLenField_lt s
    · exact Nat.two_pow_pos _
  · split
    · exact hlen ‹_›
    · exact Nat.zero_le _
  · exact h.rxcnt
  · exact hlo
  · exact hhi

theorem resFits_finalize (h : RxFits s) : ResFits (finalize s) := by
  rw [finalize_eq]
  exact resFits_conclude _ (rxFits_framerView h) (by simpa using windowMin_le s false)
    (by simpa using windowMin_le s true)

/-- Every instruction keeps the result registers within their widths; only `GATE` writes a number there. -/
theorem resFits_effect (i : Instr) (hx : RxFits s) (h : ResFits s) : ResFits (effect i s) := by
  cases i with
  | gate v => exact resFits_setRx _ (resFits_finalize hx)
  | txclr | txpush | txgo => simp only [effect_txclr, effect_txpush, effect_txgo]; split <;> exact { h with }
  | calib | runt | zero | one | long | recOnly => constructor <;> simp [h.len, h.lenCap, h.nbytes, h.minLow, h.minHigh]
  | _ => exact { h with }

end Results

section Transmitter

variable {s : State}

/-- Sending a bit keeps `TXIDX` within the bits of the largest frame. -/
theorem txFits_sendBit {hold : Nat} (hh : hold < 2 ^ s.cfg.tw) (hi : s.tx.idx < 8 * s.flen) (h : TxFits s) :
    TxFits (sendBit hold s) := by
  have hidx : s.tx.idx + 1 ≤ 8 * (4 + s.cfg.lenBytes.toNat + s.cfg.txbufCap + 1) := by
    have := h.txlen
    simp only [State.flen] at hi
    omega
  exact { h with hold := hh, idx := hidx }

/-- Every instruction keeps the transmit path within its widths, an action that sends a bit where a bit remains. -/
theorem txFits_effect (i : Instr) (hc : configOk s.cfg = true) (hi : i = .tzero ∨ i = .tone → s.tx.idx < 8 * s.flen)
    (h : TxFits s) : TxFits (effect i s) := by
  obtain ⟨hunit, hunit2, hstart, hend⟩ := configOk_holds hc
  cases i with
  | thold e r bt => exact { h with hold := (Nat.sub_le _ _).trans_lt h.hold }
  | tzero => exact txFits_sendBit hunit (hi (.inl rfl)) h
  | tone => exact txFits_sendBit hunit2 (hi (.inr rfl)) h
  | tend bt => exact { h with hold := hend }
  | tdone r bt => exact { h with hold := Nat.two_pow_pos _ }
  | txclr arg =>
    rw [effect_txclr]
    split
    · exact { h with txlen := Nat.zero_le _ }
    · exact { h with }
  | txpush arg =>
    rw [effect_txpush]
    split
    · next hroom => exact { h with txlen := hroom.2 }
    · exact { h with }
  | txgo arg =>
    rw [effect_txgo]
    split
    · exact { h with hold := hstart, idx := Nat.zero_le _ }
    · exact { h with }
  | gate | calib | runt | zero | one | long | recOnly => constructor <;> simp [h.hold, h.txlen, h.idx]
  | _ => exact { h with }

end Transmitter

/-- Settles O14: path by path, whichever of its three kinds the step is. -/
theorem stepKeepsWidths : Obligations.StepKeepsWidths := by
  intro s t h hstep
  obtain ⟨hrx, hres, htx⟩ := (widthsOk_iff s).mp h
  obtain ⟨hc, ⟨-, rfl⟩ | ⟨-, -, rfl⟩ | ⟨-, w, i, hf, hd, -, rfl⟩⟩ := step_effect_cases hstep
  · exact widthsOk_resetTick s
  · exact widthsOk_advance _ h
  · exact widthsOk_advance _ <| (widthsOk_iff _).mpr
      ⟨rxFits_effect i hrx, resFits_effect i hrx hres, txFits_effect i hc (bitRemains_of_sends hf hd) htx⟩

end Sys2Proof.Machine
end

section
/-!
PROOFS. Buffer entries at or beyond the counts cannot be observed: whatever the machine and its ports compute is the
same in two states that differ only there, and every operation keeps two such states so.
-/

namespace Sys2Proof.Machine

/-- Two canonical buffers that agree below an index still do, up to and with it, once the same value is written at
it. -/
theorem bufRead_write_agree {α : Type} [DecidableEq α] {d : α} {l l' : List (Nat × α)} (hl : BufWf d l)
    (hl' : BufWf d l') {n : Nat} (v : α) (h : ∀ k, k < n → bufRead d l k = bufRead d l' k) :
    ∀ k, k < n + 1 → bufRead d (bufWrite d l n v) k = bufRead d (bufWrite d l' n v) k := by
  intro k hk
  by_cases hkn : k = n
  · rw [hkn, bufRead_write_same l n v hl, bufRead_write_same l' n v hl']
  · rw [bufRead_write_other l v hkn, bufRead_write_other l' v hkn, h k (by omega)]

/-- Writing the entries below `n` one after the other leaves each as written. -/
theorem foldl_writeRxpay_read (f : Nat → Byte) {m : Memory} (hm : m.wf) {n i : Nat} (hi : i < n) :
    ((List.range n).foldl (fun m i => m.writeRxpay i (f i)) m).readRxpay i = f i := by
  induction n with
  | zero => omega
  | succ n ih =>
    rw [List.range_succ, List.foldl_append, List.foldl_cons, List.foldl_nil]
    by_cases hin : i = n
    · have hwf := foldl_preserves (fun m i => Memory.writeRxpay m i (f i)) (fun m : Memory => m.wf)
        (fun _ _ h => writeRxpay_wf _ _ h) (List.range n) m hm
      rw [hin, readRxpay_writeRxpay _ _ hwf]
    · rw [readRxpay_writeRxpay_other _ _ hin, ih (by omega)]

/-- `DELIVER(n)` leaves the decrypted payload below `n` (R160). -/
theorem deliver_readRxpay {s : State} (hs : s.mem.wf) {n i : Nat} (hi : i < n) :
    (deliver n s).mem.readRxpay i = ciph s.cfg (s.rxByte (payloadAt s.cfg + i)) i :=
  foldl_writeRxpay_read (fun i => ciph s.cfg (s.rxByte (payloadAt s.cfg + i)) i) hs hi

theorem sameVisible_refl (s : State) : SameVisible s s :=
  ⟨rfl, rfl, rfl, rfl, rfl, rfl, fun _ _ => rfl, fun _ _ => rfl, fun _ _ => rfl, fun _ _ => rfl⟩

section Observations

variable {s t : State}

theorem sameVisible_input (h : SameVisible s t) : s.input = t.input := input_of_env h.env

theorem sameVisible_rxIn (h : SameVisible s t) : s.rxIn = t.rxIn := rxIn_of_env h.env

theorem sameVisible_diff (h : SameVisible s t) : s.diff = t.diff := diff_of_rx h.cfg (by rw [h.rx])

theorem sameVisible_cwEvent (h : SameVisible s t) (k : Nat) : s.cwEvent k = t.cwEvent k := by
  unfold State.cwEvent
  rw [← h.rx, ← h.env]
  split
  · exact h.cw k ‹_›
  · rfl

theorem sameVisible_rxByte (h : SameVisible s t) (i : Nat) : s.rxByte i = t.rxByte i := by
  unfold State.rxByte
  rw [← h.rx, ← h.env]
  split
  · exact h.rxbuf i ‹_›
  · rfl

theorem sameVisible_payByte (h : SameVisible s t) (i : Nat) : s.payByte i = t.payByte i := by
  unfold State.payByte
  rw [← h.res, ← h.env]
  split
  · exact h.rxpay i ‹_›
  · rfl

theorem sameVisible_txByte (h : SameVisible s t) (i : Nat) : s.txByte i = t.txByte i := by
  unfold State.txByte
  rw [← h.tx, ← h.env]
  split
  · exact h.txbuf i ‹_›
  · rfl

/-- The frame being sent reads the payload below `TXLEN` only (R180). -/
theorem sameVisible_frame (h : SameVisible s t) : s.frame = t.frame := by
  have hplain : s.plain = t.plain := by
    simp only [State.plain, h.tx, funext (sameVisible_txByte h)]
  simp only [State.frame, h.cfg, hplain]

theorem sameVisible_txSelector (h : SameVisible s t) : txSelector s = txSelector t := by
  unfold txSelector flagI flagH flagE flagBt flagR State.flen State.frameBit
  rw [sameVisible_frame h, h.tx, h.cfg]

theorem sameVisible_rxVector (h : SameVisible s t) : rxVector s = rxVector t := by
  unfold rxVector flagP flagG flagM flagX flagJ flagA flagB flagC
  rw [sameVisible_diff h, sameVisible_rxIn h, h.rx, h.cfg]

theorem sameVisible_fetchWord (h : SameVisible s t) : fetchWord s = fetchWord t := by
  simp only [fetchWord, h.env, sameVisible_input h, sameVisible_txSelector h, sameVisible_rxVector h]

/-- The ports show the same, the read port for every address. -/
theorem sameVisible_outputsAt (h : SameVisible s t) (a : BitVec 16) : outputsAt s a = outputsAt t a := by
  simp only [outputsAt, txBusy, rdData, sameVisible_payByte h, h.tx, h.res, h.cmdErr]

theorem sameVisible_windowMin (h : SameVisible s t) (l : Level) : windowMin s l = windowMin t l := by
  simp only [windowMin, sameVisible_cwEvent h, h.rx, h.cfg]

theorem sameVisible_timingCause (h : SameVisible s t) (lo hi : Nat) : timingCause s lo hi = timingCause t lo hi := by
  simp only [timingCause, h.rx, h.cfg]

theorem sameVisible_fullCause (h : SameVisible s t) (c : BitVec 5) : fullCause s c = fullCause t c := by
  unfold fullCause allZero
  rw [funext (sameVisible_rxByte h), h.rx]

theorem sameVisible_rxLenField (h : SameVisible s t) : rxLenField s = rxLenField t := by
  simp only [rxLenField, sameVisible_rxByte h, h.cfg]

theorem sameVisible_verdict (h : SameVisible s t) (c : BitVec 5) : verdict s c = verdict t c := by
  unfold verdict sigOk wirePayload
  rw [sameVisible_rxLenField h, funext (sameVisible_rxByte h), h.rx, h.cfg]

end Observations

section Updates

variable {s t : State}

/-- The same receive path on both sides, its counts grown on neither. -/
theorem sameVisible_setRx (h : SameVisible s t) {r r' : RxPath} (e : r = r') (hcw : r.cwcnt ≤ s.rx.cwcnt)
    (hbuf : r.rxcnt ≤ s.rx.rxcnt) : SameVisible (s.setRx r) (t.setRx r') :=
  { h with
    rx := e
    cw := fun k hk => h.cw k (Nat.lt_of_lt_of_le hk hcw)
    rxbuf := fun i hi => h.rxbuf i (Nat.lt_of_lt_of_le hi hbuf) }

theorem sameVisible_setRes (h : SameVisible s t) {r r' : RxResult} (e : r = r') (hlen : r.len ≤ s.res.len) :
    SameVisible (s.setRes r) (t.setRes r') :=
  { h with res := e, rxpay := fun i hi => h.rxpay i (Nat.lt_of_lt_of_le hi hlen) }

theorem sameVisible_setTx (h : SameVisible s t) {r r' : TxPath} (e : r = r') (hlen : r.len ≤ s.tx.len) :
    SameVisible (s.setTx r) (t.setTx r') :=
  { h with tx := e, txbuf := fun i hi => h.txbuf i (Nat.lt_of_lt_of_le hi hlen) }

theorem sameVisible_setCmdErr (h : SameVisible s t) (b : Bool) : SameVisible (s.setCmdErr b) (t.setCmdErr b) :=
  { h with cmdErr := rfl }

theorem sameVisible_setEnv (h : SameVisible s t) {e e' : Env} (he : e = e') : SameVisible (s.setEnv e) (t.setEnv e') :=
  { h with env := he }

end Updates

section Operations

variable {s t : State}

theorem sameVisible_accept (h : SameVisible s t) : SameVisible (accept s) (accept t) :=
  sameVisible_setRx h (by rw [h.rx, sameVisible_rxIn h]) (Nat.le_refl _) (Nat.le_refl _)

theorem sameVisible_passTime (h : SameVisible s t) : SameVisible (passTime s) (passTime t) :=
  sameVisible_setRx h (by rw [h.rx, sameVisible_diff h]) (Nat.le_refl _) (Nat.le_refl _)

theorem sameVisible_markBad (h : SameVisible s t) : SameVisible (markBad s) (markBad t) :=
  sameVisible_setRx h (by rw [h.rx]) (Nat.le_refl _) (Nat.le_refl _)

/-- `RECORD` writes the entry at the count and then counts it in. -/
theorem sameVisible_record (hs : s.mem.wf) (ht : t.mem.wf) (h : SameVisible s t) (l : Level) (d : Nat) :
    SameVisible (record l d s) (record l d t) := by
  unfold record
  rw [← h.rx, ← h.cfg]
  split
  · exact { h with rx := rfl, cw := bufRead_write_agree hs.1 ht.1 _ h.cw }
  · exact sameVisible_setRx h rfl (Nat.le_refl _) (Nat.le_refl _)

/-- `PUSHBIT` writes a byte at the count, if it does, and then counts it in. -/
theorem sameVisible_pushBit (hs : s.mem.wf) (ht : t.mem.wf) (h : SameVisible s t) (b : Bool) :
    SameVisible (pushBit b s) (pushBit b t) := by
  simp only [pushBit]
  rw [← h.rx, ← h.cfg]
  split_ifs
  · exact sameVisible_setRx h rfl (Nat.le_refl _) (Nat.le_refl _)
  · exact { h with rx := rfl, rxbuf := bufRead_write_agree hs.2.1 ht.2.1 _ h.rxbuf }
  · exact sameVisible_setRx h rfl (Nat.le_refl _) (Nat.le_refl _)
  · exact sameVisible_setRx h rfl (Nat.le_refl _) (Nat.le_refl _)

theorem sameVisible_symbol (hs : s.mem.wf) (ht : t.mem.wf) (h : SameVisible s t) (d u : Nat) :
    SameVisible (symbol d u s) (symbol d u t) := by
  unfold symbol
  split_ifs
  · exact sameVisible_pushBit hs ht h false
  · exact sameVisible_pushBit hs ht h true
  · exact sameVisible_markBad h

/-- The window decode reads the events below `CWCNT` and pushes the same symbols on both sides. -/
theorem sameVisible_winDecode (hs : s.mem.wf) (ht : t.mem.wf) (h : SameVisible s t) (lo hi : Nat) :
    SameVisible (winDecode lo hi s) (winDecode lo hi t) := by
  simp only [winDecode, sameVisible_cwEvent h, h.rx]
  have hfold := List.foldl_rel (l := List.range t.rx.cwcnt) (a := s) (b := t)
    (f := fun u k => symbol (t.cwEvent k).dur (if (t.cwEvent k).level then hi else lo) u)
    (g := fun u k => symbol (t.cwEvent k).dur (if (t.cwEvent k).level then hi else lo) u)
    (r := fun u v => SameVisible u v ∧ u.mem.wf ∧ v.mem.wf) ⟨h, hs, ht⟩
    (fun k _ u v ⟨huv, hu, hv⟩ => ⟨sameVisible_symbol hu hv huv _ _, symbol_wf _ _ hu, symbol_wf _ _ hv⟩)
  exact hfold.1

theorem sameVisible_assembled (hs : s.mem.wf) (ht : t.mem.wf) (h : SameVisible s t) (lo hi : Nat) (c : BitVec 5) :
    SameVisible (assembled lo hi c s) (assembled lo hi c t) := by
  unfold assembled
  rw [← h.cfg]
  split
  · exact sameVisible_winDecode hs ht h lo hi
  · exact h

/-- `DELIVER(n)` writes the whole payload that `RXLEN` then uncovers. -/
theorem sameVisible_deliver (hs : s.mem.wf) (ht : t.mem.wf) (h : SameVisible s t) (n : Nat) :
    SameVisible (deliver n s) (deliver n t) where
  cfg := h.cfg
  rx := h.rx
  res := by rw [deliver_res, deliver_res, h.res]
  tx := h.tx
  cmdErr := h.cmdErr
  env := h.env
  cw := by simpa [Memory.readCw] using h.cw
  rxbuf := by simpa [Memory.readRxbuf] using h.rxbuf
  rxpay := fun i (hi : i < n) => by
    rw [deliver_readRxpay hs hi, deliver_readRxpay ht hi, h.cfg, sameVisible_rxByte h]
  txbuf := by simpa [Memory.readTxbuf] using h.txbuf

theorem sameVisible_post (h : SameVisible s t) (st : RxStatus) (c : BitVec 5) (lo hi : Nat) :
    SameVisible (post st c lo hi s) (post st c lo hi t) :=
  sameVisible_setRes h (by rw [h.rx, h.res]) (by dsimp only; split <;> omega)

theorem sameVisible_clear (h : SameVisible s t) : SameVisible (clear s) (clear t) :=
  sameVisible_setRx h (by rw [h.rx, h.cfg]) (Nat.zero_le _) (Nat.zero_le _)

theorem sameVisible_conclude (hs : s.mem.wf) (ht : t.mem.wf) (h : SameVisible s t) (lo hi : Nat) (c : BitVec 5) :
    SameVisible (conclude lo hi c s) (conclude lo hi c t) := by
  simp only [conclude, ← sameVisible_verdict h, ← sameVisible_rxLenField h]
  refine sameVisible_clear (sameVisible_post ?_ _ _ _ _)
  split
  · exact sameVisible_deliver hs ht h _
  · exact h

theorem sameVisible_finalize (hs : s.mem.wf) (ht : t.mem.wf) (h : SameVisible s t) :
    SameVisible (finalize s) (finalize t) := by
  simp only [finalize, ← sameVisible_windowMin h, ← sameVisible_timingCause h]
  have hview := sameVisible_assembled hs ht h (windowMin s false) (windowMin s true)
    (timingCause s (windowMin s false) (windowMin s true))
  rw [← sameVisible_fullCause hview]
  exact sameVisible_conclude (assembled_wf _ _ _ hs) (assembled_wf _ _ _ ht) hview _ _ _

/-- Every instruction keeps the difference out of sight. -/
theorem sameVisible_effect (hs : s.mem.wf) (ht : t.mem.wf) (h : SameVisible s t) (i : Instr) :
    SameVisible (effect i s) (effect i t) := by
  have hrec : SameVisible (accept (record s.rx.level s.diff s)) (accept (record t.rx.level t.diff t)) := by
    rw [← h.rx, ← sameVisible_diff h]
    exact sameVisible_accept (sameVisible_record hs ht h _ _)
  have hrs : (accept (record s.rx.level s.diff s)).mem.wf := record_wf _ _ hs
  have hrt : (accept (record t.rx.level t.diff t)).mem.wf := record_wf _ _ ht
  cases i with
  | gate v =>
    have hfin := sameVisible_finalize hs ht h
    exact sameVisible_setRx hfin (by rw [hfin.rx]) (Nat.le_refl _) (Nat.le_refl _)
  | hold | noise => exact sameVisible_passTime h
  | first m a b c =>
    have hacc := sameVisible_accept h
    exact sameVisible_setRx hacc (by rw [hacc.rx]) (Nat.le_refl _) (Nat.le_refl _)
  | calib m a b c =>
    exact sameVisible_setRx hrec (by rw [hrec.rx, sameVisible_diff h]) (Nat.le_refl _) (Nat.le_refl _)
  | runt | long => exact sameVisible_markBad hrec
  | zero => exact sameVisible_pushBit hrs hrt hrec false
  | one => exact sameVisible_pushBit hrs hrt hrec true
  | recOnly a b c => exact hrec
  | tidle | nop => exact h
  | thold | tdone => exact sameVisible_setTx h (by rw [h.tx]) (Nat.le_refl _)
  | tzero | tone | tend => exact sameVisible_setTx h (by rw [h.tx, h.cfg]) (Nat.le_refl _)
  | txclr arg =>
    rw [effect_txclr, effect_txclr, ← h.tx]
    split
    · exact sameVisible_setTx h rfl (Nat.zero_le _)
    · exact sameVisible_setCmdErr h true
  | txpush arg =>
    rw [effect_txpush, effect_txpush, ← h.tx, ← h.cfg]
    split
    · exact { h with tx := rfl, txbuf := bufRead_write_agree hs.2.2.2 ht.2.2.2 _ h.txbuf }
    · exact sameVisible_setCmdErr h true
  | txgo arg =>
    rw [effect_txgo, effect_txgo, ← h.tx]
    split
    · exact sameVisible_setTx h (by rw [h.tx, h.cfg]) (Nat.le_refl _)
    · exact sameVisible_setCmdErr h true
  | rxack arg => exact sameVisible_setRes h (by rw [h.res]) (Nat.le_refl _)
  | errclr arg => exact sameVisible_setCmdErr h false
  | reserved67 | reserved8F => exact sameVisible_setCmdErr h true

theorem sameVisible_advance (h : SameVisible s t) (g : Bool) : SameVisible (advance g s) (advance g t) := by
  unfold advance
  rw [← h.env]
  split
  · exact sameVisible_setEnv h rfl
  · exact sameVisible_setEnv h rfl
  · split
    · exact h
    · exact sameVisible_setEnv h (by rw [h.env, h.tx])

theorem sameVisible_resetTick (h : SameVisible s t) : SameVisible (resetTick s) (resetTick t) := by
  have he : resetTick s = resetTick t := by simp only [resetTick, h.cfg, h.env]
  exact he ▸ sameVisible_refl _

end Operations

/-- Settles O53: both states form the same word, and every effect keeps them alike; the canonical form is needed where
an entry is written and then counted in. -/
theorem hiddenEntriesAreUnobservable : Obligations.HiddenEntriesAreUnobservable := by
  intro s t hs ht h
  refine ⟨sameVisible_outputsAt h, fun s' hstep => ?_⟩
  obtain ⟨hc, hkind⟩ := step_effect_cases hstep
  rw [h.cfg] at hc
  rw [sameVisible_input h, sameVisible_fetchWord h] at hkind
  obtain ⟨hr, rfl⟩ | ⟨hr, hf, rfl⟩ | ⟨hr, w, i, hf, hd, hw, rfl⟩ := hkind
  · exact ⟨_, step_of_reset hc hr, sameVisible_resetTick h⟩
  · exact ⟨_, step_of_no_word hc hr hf, sameVisible_advance h false⟩
  · exact ⟨_, step_of_decode hc hr hf hd hw, sameVisible_advance (sameVisible_effect hs ht h i) _⟩

end Sys2Proof.Machine
end

section
/-!
PROOFS. The table-driven steps of a tick against the pseudocode: each of the three steps of a tick forms a word whose
instruction does what `txStep`, `hostCmd` or `rxStep` does, and none of the three looks at which step comes next.
-/

namespace Sys2Proof.Machine

/-- The same state with another step of the tick next. -/
def State.inSlot (x : Slot) (s : State) : State := s.setEnv { s.env with slot := x }

section SlotUnread

variable (x : Slot) (s : State)

theorem inSlot_input : (s.inSlot x).input = s.input := rfl

theorem inSlot_rxIn : (s.inSlot x).rxIn = s.rxIn := rfl

theorem record_inSlot (l : Level) (d : Nat) : record l d (s.inSlot x) = (record l d s).inSlot x := by
  rw [record, record, apply_ite (State.inSlot x)]
  rfl

theorem pushBit_inSlot (b : Bool) : pushBit b (s.inSlot x) = (pushBit b s).inSlot x := by
  simp only [pushBit, apply_ite (State.inSlot x)]
  rfl

theorem symbol_inSlot (d u : Nat) : symbol d u (s.inSlot x) = (symbol d u s).inSlot x := by
  unfold symbol
  split_ifs
  · exact pushBit_inSlot x s false
  · exact pushBit_inSlot x s true
  · rfl

theorem winDecode_inSlot (lo hi : Nat) : winDecode lo hi (s.inSlot x) = (winDecode lo hi s).inSlot x :=
  List.foldl_hom (State.inSlot x) fun t _ => symbol_inSlot x t _ _

theorem assembled_inSlot (lo hi : Nat) (c : BitVec 5) :
    assembled lo hi c (s.inSlot x) = (assembled lo hi c s).inSlot x := by
  unfold assembled
  rw [winDecode_inSlot, apply_ite (State.inSlot x)]
  rfl

theorem conclude_inSlot (lo hi : Nat) (c : BitVec 5) :
    conclude lo hi c (s.inSlot x) = (conclude lo hi c s).inSlot x := by
  have hv : verdict (s.inSlot x) c = verdict s c := rfl
  by_cases hok : verdict s c = .ok
  · simp only [conclude, hv, if_pos hok]
    rfl
  · simp only [conclude, hv, if_neg hok]
    rfl

theorem finalize_inSlot : finalize (s.inSlot x) = (finalize s).inSlot x := by
  simp only [finalize, assembled_inSlot]
  exact conclude_inSlot x _ _ _ _

theorem rxGate_inSlot : rxGate (s.inSlot x) = (rxGate s).inSlot x := by
  simp only [rxGate, finalize_inSlot, apply_ite (State.inSlot x)]
  rfl

theorem rxTransition_inSlot (l : Level) (d : Nat) :
    rxTransition l d (s.inSlot x) = (rxTransition l d s).inSlot x := by
  have hset : ∀ t r, (State.inSlot x t).setRx r = (t.setRx r).inSlot x := fun _ _ => rfl
  have hrx : (s.inSlot x).rx = s.rx := rfl
  have hcfg : (s.inSlot x).cfg = s.cfg := rfl
  simp only [rxTransition, hset, record_inSlot, symbol_inSlot, hrx, hcfg]
  cases s.rx.phase with
  | idle => rfl
  | start => rfl
  | data => exact (apply_ite (State.inSlot x) _ _ _).symm

theorem rxStep_inSlot (l : Level) : rxStep l (s.inSlot x) = (rxStep l s).inSlot x := by
  simp only [rxStep, rxGate_inSlot, rxTransition_inSlot, apply_ite (State.inSlot x)]
  rfl

theorem hostCmd_inSlot (v : Bool) (c : BitVec 12) : hostCmd v c (s.inSlot x) = (hostCmd v c s).inSlot x := by
  cases v with
  | false => rfl
  | true =>
    simp only [hostCmd, if_true]
    split
    case h_2 | h_3 | h_4 =>
      rw [apply_ite (State.inSlot x)]
      rfl
    all_goals rfl

end SlotUnread

section Transmit

variable (s : State)

/-- The selector's instruction does what `TXSTEP` does (R94, R184). -/
theorem effect_txSelector : effect (decodeSelector (txSelector s)) s = txStep s := by
  rw [txSelector, decodeSelector_selectorOf, txStep]
  by_cases hidle : s.tx.phase = .idle
  · simp [flagI, hidle]
  by_cases hhold : 1 < s.tx.hold
  · simp [flagI, flagH, hidle, hhold]
  by_cases hend : s.tx.phase = .end_
  · simp [flagI, flagH, flagE, hhold, hend]
  by_cases hbit : s.tx.idx < 8 * s.flen
  · by_cases hone : s.frameBit s.tx.idx = true
    · simp [flagI, flagH, flagE, flagR, flagBt, hidle, hhold, hend, hbit, hone, sendBit]
    · simp [flagI, flagH, flagE, flagR, flagBt, hidle, hhold, hend, hbit, hone, sendBit]
  · simp [flagI, flagH, flagE, flagR, hidle, hhold, hend, hbit]

/-- The selector is a reachable word (R94): `T_IDLE` and `T_END` exclude each other, and a bit is read only where one
remains. -/
theorem txSelector_wellFormed : (decodeSelector (txSelector s)).wellFormed = true := by
  have hie : flagI s = true → flagE s = false := fun h => by simp_all [flagI, flagE]
  have hbt : bitTaken (flagR s) (flagBt s) = true := by cases h : flagR s <;> simp [bitTaken, flagBt, h]
  rw [txSelector, decodeSelector_selectorOf]
  split_ifs with hI hH hE hR hB <;> simp_all [Instr.wellFormed]

end Transmit

section Command

/-- The command's instruction does what `HOSTCMD` does (R97, R200 to R207). -/
theorem effect_decodeCommand (c : BitVec 12) (s : State) : effect (decodeCommand c) s = hostCmd true c s := by
  simp only [decodeCommand, hostCmd, if_true]
  generalize c.extractLsb' 8 4 = op
  by_cases h0 : op = 0x0
  · subst h0; rfl
  by_cases h1 : op = 0x1
  · subst h1; exact effect_txclr s _
  by_cases h2 : op = 0x2
  · subst h2; exact effect_txpush s _
  by_cases h3 : op = 0x3
  · subst h3; exact effect_txgo s _
  by_cases h4 : op = 0x4
  · subst h4; rfl
  by_cases h5 : op = 0x5
  · subst h5; rfl
  have hop : 6 ≤ op.toNat := by bv_omega
  have hreserved : effect (if op.getLsbD 3 then .reserved8F (op.extractLsb' 0 3) (c.extractLsb' 0 8)
      else .reserved67 (op.getLsbD 0) (c.extractLsb' 0 8)) s = refuseCmd s := by split <;> rfl
  rw [if_neg h0, if_neg h1, if_neg h2, if_neg h3, if_neg h4, if_neg h5, hreserved]
  split <;> [omega; omega; omega; omega; omega; omega; rfl]

/-- Every command word is reachable (R97). -/
theorem command_wellFormed {i : Instr} (h : i.isCommand = true) : i.wellFormed = true := by
  cases i with
  | nop | txclr | txpush | txgo | rxack | errclr | reserved67 | reserved8F => rfl
  | _ => cases h

end Command

section Classify

variable {s : State}

theorem flagG_iff (s : State) : flagG s = true ↔ s.rx.phase ≠ .idle ∧ s.cfg.rxEndPeriod < s.diff := by
  simp [flagG]

theorem rxGate_of_flagG (h : flagG s = true) :
    rxGate s = (finalize s).setRx { (finalize s).rx with phase := .idle } := if_pos ((flagG_iff s).mp h)

theorem rxGate_of_not_flagG (h : flagG s = false) : rxGate s = s :=
  if_neg fun hn => by rw [(flagG_iff s).mpr hn] at h; cases h

/-- The comparators are nested (R92). -/
theorem flags_thermometer (s : State) : thermometer (flagA s) (flagB s) (flagC s) = true := by
  have hcb : flagC s = true → flagB s = true := by simp only [flagC, flagB, decide_eq_true_eq]; omega
  have hba : flagB s = true → flagA s = true := by simp only [flagB, flagA, decide_eq_true_eq]; omega
  cases hA : flagA s <;> cases hB : flagB s <;> cases hC : flagC s <;> simp_all [thermometer]

theorem phaseReachable_code (p : RxPhase) : phaseReachable p.code = true := by cases p <;> rfl

/-- The gate leaves `diff` and the line alone and closes the message, so that `RXSTEP` goes on as without it. -/
theorem rxStep_rxGate {l : Level} (h : flagG s = true) : rxStep l (rxGate s) = rxStep l s := by
  have hdiff : (rxGate s).diff = s.diff := by rw [rxGate_of_flagG h]; exact diff_of_rx (by simp) (by simp)
  have hagain : rxGate (rxGate s) = rxGate s := rxGate_of_not_flagG (by rw [rxGate_of_flagG h]; rfl)
  simp only [rxStep, hdiff, hagain]

theorem gate_wellFormed_vectorOf (g m x j : Bool) (pp : BitVec 2) (a b c : Bool) :
    (Instr.gate ((vectorOf g m x j pp a b c).extractLsb' 0 8)).wellFormed = (!j && (pp == 0) && thermometer a b c) := by
  revert g m x j pp a b c; decide

/-- `RX_REJECT_PERIOD <= RX_END_PERIOD` (R6). -/
theorem configOk_reject_le {c : Config} (h : configOk c = true) : c.rxRejectPeriod ≤ c.rxEndPeriod := by
  simp only [configOk, Bool.and_eq_true, decide_eq_true_eq] at h
  omega

/-- With `G = 1` the word is a reachable `GATE` and does what the pseudocode's gate does (R111). -/
theorem rxVector_gate (hc : configOk s.cfg = true) (h : flagG s = true) :
    ∃ i, decodeVector (rxVector s) = .ok i ∧ i.wellFormed = true ∧ i.isGate = true ∧ effect i s = rxGate s := by
  have hJ : flagJ s = false := by
    have hend := ((flagG_iff s).mp h).2
    have hle := configOk_reject_le hc
    simp only [flagJ, decide_eq_false_iff_not]
    omega
  have hP : flagP s = 0 := if_pos h
  refine ⟨.gate ((rxVector s).extractLsb' 0 8), ?_, ?_, rfl, (rxGate_of_flagG h).symm⟩
  · rw [rxVector, decodeVector_vectorOf, h, if_pos rfl]
  · rw [rxVector, gate_wellFormed_vectorOf, hJ, hP, flags_thermometer]
    rfl

/-- The count of units by the comparator bits (R90, R112). -/
theorem cnt_flags (s : State) : cnt s.diff s.rx.unit =
    if flagC s then 3 else if !flagA s then 0 else if !flagB s then 1 else 2 := by
  simp only [cnt, flagA, flagB, flagC, decide_eq_true_eq, Bool.not_eq_true', decide_eq_false_iff_not]
  split_ifs <;> omega

theorem record_accept (l : Level) (d : Nat) (s : State) : record l d (accept s) = accept (record l d s) := by
  rw [record, record, apply_ite accept]
  rfl

theorem setRx_eq_accept (s : State) : s.setRx { s.rx with level := s.rxIn, elapsed := 0 } = accept s := rfl

theorem rxTransition_idle (hp : s.rx.phase = .idle) : rxTransition s.rxIn s.diff s =
    (accept s).setRx { (accept s).rx with unit := 0, phase := .start } := by
  simp only [rxTransition, setRx_eq_accept]
  rw [hp]

theorem rxTransition_start (hp : s.rx.phase = .start) : rxTransition s.rxIn s.diff s =
    (accept (record s.rx.level s.diff s)).setRx
      { (accept (record s.rx.level s.diff s)).rx with unit := 9 * s.diff / 10, phase := .data } := by
  rw [← record_accept]
  simp only [rxTransition, setRx_eq_accept]
  rw [hp]

theorem rxTransition_data (hp : s.rx.phase = .data) : rxTransition s.rxIn s.diff s =
    if s.cfg.decodeMode = .cal then symbol s.diff s.rx.unit (accept (record s.rx.level s.diff s))
    else accept (record s.rx.level s.diff s) := by
  rw [← record_accept]
  simp only [rxTransition, setRx_eq_accept]
  rw [hp]

/-- An accepted transition with data open selects the class of its count (R118 to R121). -/
theorem rxVector_data (hG : flagG s = false) (hX : flagX s = true) (hJ : flagJ s = false)
    (hp : s.rx.phase = .data) :
    ∃ i, decodeVector (rxVector s) = .ok i ∧ i.wellFormed = true ∧ i.isGate = false ∧
      effect i s = rxTransition s.rxIn s.diff s := by
  have hP : flagP s = 2 := by simp [flagP, hG, hp, RxPhase.code]
  have hladder := flags_thermometer s
  simp only [rxVector, decodeVector_vectorOf, rxTransition_data hp, hG, hX, hJ, hP]
  cases hm : s.cfg.decodeMode with
  | min =>
    have hM : flagM s = true := by simp [flagM, hm]
    exact ⟨.recOnly (flagA s) (flagB s) (flagC s), by simp [hM], hladder, rfl, rfl⟩
  | cal =>
    have hM : flagM s = false := by simp [flagM, hm]
    have hcnt := cnt_flags s
    cases hC : flagC s with
    | true =>
      exact ⟨.long (flagA s) (flagB s), by simp [hM], by rw [hC] at hladder; exact hladder, rfl,
        by simp [symbol, hcnt, hC]⟩
    | false =>
      cases hA : flagA s with
      | false =>
        exact ⟨.runt (flagB s), by simp [hM], by rw [hC, hA] at hladder; exact hladder, rfl,
          by simp [symbol, hcnt, hC, hA]⟩
      | true =>
        cases hB : flagB s with
        | false => exact ⟨.zero, by simp [hM], rfl, rfl, by simp [symbol, hcnt, hC, hA, hB]⟩
        | true => exact ⟨.one, by simp [hM], rfl, rfl, by simp [symbol, hcnt, hC, hA, hB]⟩

/-- With `G = 0` the word is a reachable class and does what the pseudocode does (R91, R110). -/
theorem rxVector_class (hG : flagG s = false) :
    ∃ i, decodeVector (rxVector s) = .ok i ∧ i.wellFormed = true ∧ i.isGate = false ∧
      effect i s = rxStep s.rxIn s := by
  have hstep : rxStep s.rxIn s = if s.rxIn = s.rx.level then passTime s
      else if s.diff < s.cfg.rxRejectPeriod then passTime s else rxTransition s.rxIn s.diff s := by
    simp only [rxStep, rxGate_of_not_flagG hG]
    rfl
  have hP : flagP s = s.rx.phase.code := by simp [flagP, hG]
  have hladder := flags_thermometer s
  by_cases hlevel : s.rxIn = s.rx.level
  · have hX : flagX s = false := by simp [flagX, hlevel]
    exact ⟨.hold (flagM s) (flagJ s) (flagP s) (flagA s) (flagB s) (flagC s),
      by simp [rxVector, decodeVector_vectorOf, hG, hX], by simp [Instr.wellFormed, hP, phaseReachable_code, hladder],
      rfl, by rw [hstep, if_pos hlevel, effect_hold]⟩
  have hX : flagX s = true := by simp [flagX, hlevel]
  by_cases hearly : s.diff < s.cfg.rxRejectPeriod
  · have hJ : flagJ s = true := by simp [flagJ, hearly]
    exact ⟨.noise (flagM s) (flagP s) (flagA s) (flagB s) (flagC s),
      by simp [rxVector, decodeVector_vectorOf, hG, hX, hJ],
      by simp [Instr.wellFormed, hP, phaseReachable_code, hladder],
      rfl, by rw [hstep, if_neg hlevel, if_pos hearly, effect_noise]⟩
  have hJ : flagJ s = false := by simp [flagJ, hearly]
  rw [hstep, if_neg hlevel, if_neg hearly]
  cases hp : s.rx.phase with
  | idle =>
    exact ⟨.first (flagM s) (flagA s) (flagB s) (flagC s),
      by simp [rxVector, decodeVector_vectorOf, hG, hX, hJ, hP, hp, RxPhase.code], hladder, rfl,
      (rxTransition_idle hp).symm⟩
  | start =>
    exact ⟨.calib (flagM s) (flagA s) (flagB s) (flagC s),
      by simp [rxVector, decodeVector_vectorOf, hG, hX, hJ, hP, hp, RxPhase.code], hladder, rfl,
      (rxTransition_start hp).symm⟩
  | data => exact rxVector_data hG hX hJ hp

end Classify

section Tick

variable {s t : State}

theorem reaches_succ {u : State} {k : Nat} (h : step s = .next u) (hr : reaches u k t) : reaches s (k + 1) t := by
  have hs : core.step s = .next u := h
  simp only [reaches, Host.Core.run, hs]
  exact hr

theorem reaches_zero (s : State) : reaches s 0 s := rfl

theorem advance_tx_slot {g : Bool} (h : s.env.slot = .tx) : advance g s = s.inSlot .host := by
  simp only [advance, h, State.inSlot]

theorem advance_host_slot {g : Bool} (h : s.env.slot = .host) : advance g s = s.inSlot .rx := by
  simp only [advance, h, State.inSlot]

theorem advance_rx_slot {g : Bool} (h : s.env.slot = .rx) : advance g s = if g then s else nextTick s := by
  simp only [advance, h]

/-- The first step of a tick is the pseudocode's `TXSTEP`. -/
theorem step_txSlot (hc : configOk s.cfg = true) (hr : s.input.rst = false) (hs : s.env.slot = .tx) :
    step s = .next ((txStep s).inSlot .host) := by
  have hf : fetchWord s = some (.selector (txSelector s)) := by simp only [fetchWord, hs]
  rw [step_of_decode hc hr hf rfl (txSelector_wellFormed s), ← effect_txSelector s,
    advance_tx_slot (by rw [effect_env, hs])]

/-- The second step of a tick is the pseudocode's `HOSTCMD`. -/
theorem step_hostSlot (hc : configOk s.cfg = true) (hr : s.input.rst = false) (hs : s.env.slot = .host) :
    step s = .next ((hostCmd s.input.cmdValid s.input.cmd s).inSlot .rx) := by
  cases hv : s.input.cmdValid with
  | false =>
    have hf : fetchWord s = none := by simp [fetchWord, hs, hv]
    rw [step_of_no_word hc hr hf, advance_host_slot hs]
    rfl
  | true =>
    have hf : fetchWord s = some (.command s.input.cmd) := by simp [fetchWord, hs, hv]
    have hw := command_wellFormed (decodeCommand_isCommand s.input.cmd)
    rw [step_of_decode hc hr hf rfl hw, ← effect_decodeCommand, advance_host_slot (by rw [effect_env, hs])]

/-- With `G = 0` the last step of a tick is the pseudocode's `RXSTEP`. -/
theorem step_rxSlot_class (hc : configOk s.cfg = true) (hr : s.input.rst = false) (hs : s.env.slot = .rx)
    (hG : flagG s = false) : step s = .next (nextTick (rxStep s.rxIn s)) := by
  obtain ⟨i, hd, hw, hg, he⟩ := rxVector_class hG
  have hf : fetchWord s = some (.vector (rxVector s)) := by simp only [fetchWord, hs]
  rw [step_of_decode hc hr hf hd hw, hg, advance_rx_slot (by rw [effect_env, hs]), he]
  rfl

/-- With `G = 1` the gate takes a step of its own. -/
theorem step_rxSlot_gate (hc : configOk s.cfg = true) (hr : s.input.rst = false) (hs : s.env.slot = .rx)
    (hG : flagG s = true) : step s = .next (rxGate s) := by
  obtain ⟨i, hd, hw, hg, he⟩ := rxVector_gate hc hG
  have hf : fetchWord s = some (.vector (rxVector s)) := by simp only [fetchWord, hs]
  rw [step_of_decode hc hr hf hd hw, hg, advance_rx_slot (by rw [effect_env, hs]), he]
  rfl

/-- `RXSTEP` in one step or, when the gate fires, in two. -/
theorem reaches_rxStep (hc : configOk s.cfg = true) (hr : s.input.rst = false) (hs : s.env.slot = .rx) :
    ∃ k, (k = 1 ∨ k = 2) ∧ reaches s k (nextTick (rxStep s.rxIn s)) := by
  cases hG : flagG s with
  | false => exact ⟨1, .inl rfl, reaches_succ (step_rxSlot_class hc hr hs hG) (reaches_zero _)⟩
  | true =>
    have hcfg : (rxGate s).cfg = s.cfg := by rw [rxGate_of_flagG hG]; simp
    have henv : (rxGate s).env = s.env := by rw [rxGate_of_flagG hG]; simp
    have hG' : flagG (rxGate s) = false := by rw [rxGate_of_flagG hG]; rfl
    have hlast := step_rxSlot_class (s := rxGate s) (hcfg ▸ hc) (input_of_env henv ▸ hr) (henv ▸ hs) hG'
    rw [rxIn_of_env henv, rxStep_rxGate hG] at hlast
    exact ⟨2, .inr rfl, reaches_succ (step_rxSlot_gate hc hr hs hG) (reaches_succ hlast (reaches_zero _))⟩

end Tick

theorem txStep_cfg (s : State) : (txStep s).cfg = s.cfg := by rw [← effect_txSelector, effect_cfg]

theorem txStep_env (s : State) : (txStep s).env = s.env := by rw [← effect_txSelector, effect_env]

theorem hostCmd_cfg (v : Bool) (c : BitVec 12) (s : State) : (hostCmd v c s).cfg = s.cfg := by
  cases v with
  | false => rfl
  | true => rw [← effect_decodeCommand, effect_cfg]

theorem hostCmd_env (v : Bool) (c : BitVec 12) (s : State) : (hostCmd v c s).env = s.env := by
  cases v with
  | false => rfl
  | true => rw [← effect_decodeCommand, effect_env]

/-- Settles O10: `TXSTEP`, `HOSTCMD` and `RXSTEP` step by step; which slot of the tick they stood in is forgotten at
the tick's end. -/
theorem stepsOfATickRefinePseudocode : Obligations.StepsOfATickRefinePseudocode := by
  intro s hc hs hr
  have htx := step_txSlot hc hr hs
  have hinput : ((txStep s).inSlot .host).input = s.input :=
    (inSlot_input _ _).trans (input_of_env (txStep_env s))
  have hhost := step_hostSlot (s := (txStep s).inSlot .host) ((txStep_cfg s).symm ▸ hc) (hinput ▸ hr) rfl
  rw [hinput, hostCmd_inSlot] at hhost
  have henv : (hostCmd s.input.cmdValid s.input.cmd (txStep s)).env = s.env := by rw [hostCmd_env, txStep_env]
  have hcfg : (hostCmd s.input.cmdValid s.input.cmd (txStep s)).cfg = s.cfg := by rw [hostCmd_cfg, txStep_cfg]
  obtain ⟨k, hk, hrx⟩ := reaches_rxStep (s := (hostCmd s.input.cmdValid s.input.cmd (txStep s)).inSlot .rx)
    (hcfg.symm ▸ hc) ((input_of_env henv).symm ▸ hr) rfl
  rw [inSlot_rxIn, rxIn_of_env henv, rxStep_inSlot] at hrx
  exact ⟨k + 2, by omega, reaches_succ htx (reaches_succ hhost hrx)⟩

end Sys2Proof.Machine
end

section
/-!
PROOFS. Reset, and the cause bits of a finished message: what a tick with `rst = 1` leaves and which invariants it
starts; the cause that `GATE` posts, its five bits each under its own condition (R41, R152, R154).
-/

namespace Sys2Proof.Machine

section Reset

variable (s : State) (c : Config)

@[simp] theorem resetTick_rx : (resetTick s).rx = RxPath.reset s.cfg := rfl
@[simp] theorem resetTick_res : (resetTick s).res = RxResult.reset s.cfg := rfl
@[simp] theorem resetTick_tx : (resetTick s).tx = TxPath.reset := rfl
@[simp] theorem resetTick_cmdErr : (resetTick s).cmdErr = false := rfl

theorem widthsOk_resetWith : WidthsOk (State.resetWith c) := { widthsOk_resetTick (State.resetWith c) with }

/-- After reset the transmitter is idle, off and holds nothing (R59). -/
theorem txInStep_resetWith : TxInStep (State.resetWith c) where
  idle _ := ⟨rfl, rfl⟩
  start h := nomatch h
  data h := nomatch h
  ending h := nomatch h

/-- After reset the window is empty and the per-message state clean (R59, R116). -/
theorem messageOk_resetWith : MessageOk (State.resetWith c) where
  event k hk := absurd hk (Nat.not_lt_zero k)
  alternate k hk := absurd hk (Nat.not_lt_zero (k + 1))
  last _ hpos := absurd hpos (Nat.not_lt_zero 0)
  full h := nomatch h
  clean _ := ⟨rfl, rfl, rfl, rfl, rfl, rfl, rfl⟩

end Reset

/-- Settles O7: the step is `resetTick`, whose registers are the reset records. -/
theorem resetTickLoadsResetValues : Obligations.ResetTickLoadsResetValues := by
  intro s hc hr
  refine ⟨resetTick s, step_of_reset hc hr, ?_⟩
  simp [RxPath.reset, RxResult.reset, TxPath.reset]

/-- Settles O12: invariant by invariant; none needs the constraints of rule R6. -/
theorem resetMeetsInvariants : Obligations.ResetMeetsInvariants := fun c _ =>
  ⟨memory_empty_wf, widthsOk_resetWith c, txInStep_resetWith c, messageOk_resetWith c⟩

section Cause

variable (s : State)

/-- The order of the cause bits (R41). -/
@[simp] theorem causeOf_bits (nomin subrej badsym winovf allzero : Bool) :
    (causeOf nomin subrej badsym winovf allzero).getLsbD 0 = nomin ∧
    (causeOf nomin subrej badsym winovf allzero).getLsbD 1 = subrej ∧
    (causeOf nomin subrej badsym winovf allzero).getLsbD 2 = badsym ∧
    (causeOf nomin subrej badsym winovf allzero).getLsbD 3 = winovf ∧
    (causeOf nomin subrej badsym winovf allzero).getLsbD 4 = allzero := by
  revert nomin subrej badsym winovf allzero; decide

/-- `BADSYM` joins the timing causes, and `ALLZERO` is tested when all four are clear (R150, R152). -/
theorem fullCause_causeOf (nomin subrej winovf : Bool) :
    fullCause s (causeOf nomin subrej false winovf false) =
      causeOf nomin subrej s.rx.bad winovf (!nomin && !subrej && !winovf && !s.rx.bad && allZero s) := by
  unfold fullCause
  generalize s.rx.bad = bad, allZero s = zero
  revert nomin subrej winovf bad zero
  decide

theorem causeNoMin_iff (c : Config) (lo hi : Nat) :
    causeNoMin c lo hi = true ↔ c.rxEndPeriod ≤ lo ∨ c.rxEndPeriod ≤ hi := by
  simp [causeNoMin]

theorem causeSubRej_iff (c : Config) (lo hi : Nat) :
    causeSubRej c lo hi = true ↔ lo < c.rxRejectPeriod ∨ hi < c.rxRejectPeriod := by
  simp [causeSubRej]

/-- The bytes `ALLZERO` looks at are stored ones (R154). -/
theorem allZero_iff :
    allZero s = true ↔ 1 ≤ s.rx.rxcnt ∧ ∀ i, i < s.rx.rxcnt → s.mem.readRxbuf i = 0 := by
  have stored : ∀ i, i < s.rx.rxcnt → s.rxByte i = s.mem.readRxbuf i := fun i hi => if_pos hi
  simp only [allZero, Bool.and_eq_true, decide_eq_true_eq, List.all_eq_true, List.mem_range, beq_iff_eq]
  exact and_congr_right fun _ => forall₂_congr fun i hi => by rw [stored i hi]

/-- `timingClear` in the terms of rule R152's bits. -/
theorem timingClear_iff_causes : timingClear s ↔
    causeNoMin s.cfg (windowMin s false) (windowMin s true) = false ∧
      causeSubRej s.cfg (windowMin s false) (windowMin s true) = false ∧ s.rx.cwovf = false := by
  simp only [timingClear, ← Bool.not_eq_true, causeNoMin_iff, causeSubRej_iff, not_or, not_le, not_lt, and_assoc]

/-- The first check of the framer: `BadTiming` is the kind exactly when a cause bit is set (R150, R229). -/
theorem verdict_eq_badTiming_iff (c : BitVec 5) : verdict s c = .badTiming ↔ c ≠ 0 := by
  by_cases hc : c = 0
  · simp only [verdict, hc, ne_eq, not_true_eq_false, if_false, iff_false]
    split_ifs <;> simp
  · exact iff_of_true (if_pos hc) hc

/-- The cause posted is the cause found: with another kind than `BadTiming` it was 0 already (R41, R161). -/
theorem conclude_cause (lo hi : Nat) (c : BitVec 5) : (conclude lo hi c s).res.cause = c := by
  rw [conclude_res]
  by_cases hc : c = 0
  · simp [hc]
  · exact if_pos ((verdict_eq_badTiming_iff s c).mpr hc)

/-- The cause bits `FINALIZE` posts (R150, R152). -/
theorem finalize_cause : (finalize s).res.cause =
    causeOf (causeNoMin s.cfg (windowMin s false) (windowMin s true))
      (causeSubRej s.cfg (windowMin s false) (windowMin s true)) (framerView s).rx.bad s.rx.cwovf
      (decide (timingClear s) && !(framerView s).rx.bad && allZero (framerView s)) := by
  rw [finalize_eq, conclude_cause, timingCause, fullCause_causeOf]
  congr 1
  simp [timingClear_iff_causes, Bool.and_assoc]

/-- The kind `FINALIZE` posts is `BadTiming` exactly when it posts a cause (R150, R161). -/
theorem finalize_badTiming_iff : (finalize s).res.stat = .badTiming ↔ (finalize s).res.cause ≠ 0 := by
  rw [finalize_eq, conclude_cause, conclude_res]
  exact verdict_eq_badTiming_iff ..

end Cause

/-- Settles O24: the five bits of the posted cause, read off; `BADSYM` set makes the cause nonzero. -/
theorem gatePostsEveryCauseBit : Obligations.GatePostsEveryCauseBit := by
  intro s low
  refine ⟨effect (.gate low) s, exec_eq_effect _ _, ?_⟩
  simp only [effect_gate, setRx_res]
  have hbadsym : (finalize s).res.cause.getLsbD 2 = (framerView s).rx.bad := by
    rw [finalize_cause]; simp only [causeOf_bits]
  refine ⟨?_, ?_, by rw [hbadsym], ?_, ?_, fun hbad => (finalize_badTiming_iff s).mpr fun hzero => ?_⟩
  · simp only [finalize_cause, causeOf_bits, causeNoMin_iff]
  · simp only [finalize_cause, causeOf_bits, causeSubRej_iff]
  · simp only [finalize_cause, causeOf_bits]
  · simp only [finalize_cause, causeOf_bits, Bool.and_eq_true, decide_eq_true_eq, Bool.not_eq_true', allZero_iff,
      and_assoc]
  · rw [hzero, hbad] at hbadsym
    exact absurd hbadsym (by decide)

end Sys2Proof.Machine
end

section
/-!
PROOFS. The capture window and the open message (R60, R116): a step of the machine is one piece of the pseudocode's
tick, and the only piece that touches a window it does not empty appends one event to it (R113). The minima of such a
window (R151, R152).
-/

namespace Sys2Proof.Machine

/-- A step in the terms of the pseudocode: a reset tick, or the piece of the tick that its slot names, and the move
on (R8, R72, R250). -/
theorem step_pseudocode_cases {s t : State} (h : step s = .next t) :
    configOk s.cfg = true ∧
    (t = resetTick s ∨ t = (txStep s).inSlot .host ∨
      t = (hostCmd s.input.cmdValid s.input.cmd s).inSlot .rx ∨
      (flagG s = true ∧ t = rxGate s) ∨ (flagG s = false ∧ t = nextTick (rxStep s.rxIn s))) := by
  obtain ⟨hc, -⟩ := step_cases h
  have answer : ∀ {u : State}, step s = .next u → t = u := fun hu =>
    Host.Outcome.next.inj (h.symm.trans hu)
  refine ⟨hc, ?_⟩
  cases hr : s.input.rst with
  | true => exact .inl (answer (step_of_reset hc hr))
  | false =>
    cases hs : s.env.slot with
    | tx => exact .inr (.inl (answer (step_txSlot hc hr hs)))
    | host => exact .inr (.inr (.inl (answer (step_hostSlot hc hr hs))))
    | rx =>
      cases hG : flagG s with
      | true => exact .inr (.inr (.inr (.inl ⟨rfl, answer (step_rxSlot_gate hc hr hs hG)⟩)))
      | false => exact .inr (.inr (.inr (.inr ⟨rfl, answer (step_rxSlot_class hc hr hs hG)⟩)))

/-- `TXSTEP` writes the transmit path's registers only, and not `TXLEN` (R73, R184). -/
theorem sameOutsideTransmitter_txStep (s : State) : SameOutsideTransmitter s (txStep s) := by
  unfold txStep
  split_ifs <;> exact ⟨rfl, rfl, rfl, rfl, rfl, rfl, rfl⟩

/-- No command writes the receive path or the capture window (R209). -/
theorem effect_command_window {i : Instr} (hi : i.isCommand = true) (s : State) :
    (effect i s).rx = s.rx ∧ (effect i s).mem.cw = s.mem.cw := by
  cases i with
  | txclr | txpush | txgo => simp only [effect_txclr, effect_txpush, effect_txgo]; split <;> exact ⟨rfl, rfl⟩
  | nop | rxack | errclr | reserved67 | reserved8F => exact ⟨rfl, rfl⟩
  | _ => cases hi

theorem hostCmd_window (v : Bool) (c : BitVec 12) (s : State) :
    (hostCmd v c s).rx = s.rx ∧ (hostCmd v c s).mem.cw = s.mem.cw := by
  cases v with
  | false => exact ⟨rfl, rfl⟩
  | true => rw [← effect_decodeCommand]; exact effect_command_window (decodeCommand_isCommand c) s

section Receiver

variable {s t u : State}

/-- `diff` counts the present tick: `SATMAX` is at least 1 (R6, R11, R24). -/
theorem one_le_diff (hc : configOk s.cfg = true) : 1 ≤ s.diff := by
  simp only [configOk, Bool.and_eq_true, decide_eq_true_eq] at hc
  have hsat : 1 ≤ satMax s.cfg := by rw [satMax]; omega
  rw [State.diff, satInc]
  split <;> omega

/-- With `G = 0` and a message open, `diff` has not passed `RX_END_PERIOD` (R90). -/
theorem diff_le_of_open (hG : flagG s = false) (hp : s.rx.phase ≠ .idle) : s.diff ≤ s.cfg.rxEndPeriod := by
  by_contra hlate
  rw [(flagG_iff s).mpr ⟨hp, Nat.lt_of_not_le hlate⟩] at hG
  cases hG

/-- `RXSTEP` with `G = 0`: time passes, or a change that is not too early is accepted (R110). -/
theorem rxStep_cases (hG : flagG s = false) :
    rxStep s.rxIn s = passTime s ∨
    (s.rxIn = (!s.rx.level) ∧ s.cfg.rxRejectPeriod ≤ s.diff ∧ rxStep s.rxIn s = rxTransition s.rxIn s.diff s) := by
  simp only [rxStep, rxGate_of_not_flagG hG]
  split_ifs with hlevel hearly
  · exact .inl rfl
  · exact .inl rfl
  · exact .inr ⟨Bool.eq_not.mpr hlevel, Nat.le_of_not_lt hearly, rfl⟩

/-- `RECORD(LEVEL, diff)` appends its event (R113). -/
theorem eventAppended_record (hs : s.mem.wf) : EventAppended s (record s.rx.level s.diff s) := by
  rcases record_cases s.rx.level s.diff s with ⟨hroom, e⟩ | ⟨hfull, e⟩ <;> rw [e]
  · refine ⟨fun _ => ⟨rfl, rfl, readCw_writeCw _ _ hs⟩, fun hfull => by omega, fun k hk => ?_⟩
    exact readCw_writeCw_other _ _ (by omega)
  · exact ⟨fun hroom => by omega, fun _ => ⟨rfl, rfl⟩, fun _ _ => rfl⟩

/-- What an operation appended shows in every later state with the same window. -/
theorem eventAppended_of_same_window (h : EventAppended s t) (hcnt : u.rx.cwcnt = t.rx.cwcnt)
    (hovf : u.rx.cwovf = t.rx.cwovf) (hcw : u.mem.cw = t.mem.cw) : EventAppended s u := by
  have hread : ∀ k, u.mem.readCw k = t.mem.readCw k := fun k => by simp only [Memory.readCw, hcw]
  obtain ⟨hfits, hdropped, hothers⟩ := h
  constructor <;> simpa only [hcnt, hovf, hread]

/-- A message with nothing recorded and nothing assembled is well formed (R116). -/
theorem messageOk_of_clean
    (h : s.rx.cwcnt = 0 ∧ s.rx.rxcnt = 0 ∧ s.rx.shreg = 0 ∧ s.rx.bitcnt = 0 ∧ s.rx.skip = s.cfg.rxStartBits ∧
      s.rx.bad = false ∧ s.rx.cwovf = false) : MessageOk s := by
  have ⟨hcnt, _, _, _, _, _, hovf⟩ := h
  exact
    { event := fun k hk => by omega
      alternate := fun k hk => by omega
      last := fun _ hpos => by omega
      full := fun hfull => by rw [hovf] at hfull; cases hfull
      clean := fun _ => h }

/-- `MessageOk` does not speak of `ELAPSED`, nor of anything outside the receiver and its window. -/
theorem messageOk_of_same_window (h : MessageOk s) (hcfg : t.cfg = s.cfg) (e : Nat)
    (hrx : t.rx = { s.rx with elapsed := e }) (hcw : t.mem.cw = s.mem.cw) : MessageOk t := by
  have hread : ∀ k, t.mem.readCw k = s.mem.readCw k := fun k => by simp only [Memory.readCw, hcw]
  obtain ⟨hevent, halternate, hlast, hfull, hclean⟩ := h
  constructor <;> rw [hrx] <;> simpa only [hcfg, hread]

/-- An event within the thresholds, its level the tracked one, keeps a window well formed, and the data is open after
it (R60, R113). -/
theorem messageOk_of_eventAppended (h : MessageOk s) (happ : EventAppended s t) (hcfg : t.cfg = s.cfg)
    (hlevel : t.rx.level = !s.rx.level) (hphase : t.rx.phase = .data) (hreject : s.cfg.rxRejectPeriod ≤ s.diff)
    (hpos : 1 ≤ s.diff) (hend : s.diff ≤ s.cfg.rxEndPeriod) : MessageOk t := by
  by_cases hroom : s.rx.cwcnt < s.cfg.cwCap
  · obtain ⟨hcnt, hovf, hnew⟩ := happ.fits hroom
    have hold : ∀ k, k < s.rx.cwcnt → t.mem.readCw k = s.mem.readCw k := fun k hk => happ.others k (.inl hk.ne)
    have hovf0 : s.rx.cwovf = false := Bool.eq_false_iff.mpr fun hset => by have := h.full hset; omega
    refine ⟨fun k hk => ?_, fun k hk => ?_, fun _ _ => ?_, fun hset => ?_, fun hnot => absurd hphase hnot⟩
    · by_cases hlast : k = s.rx.cwcnt
      · rw [hlast, hnew, hcfg]
        exact ⟨rfl, hreject, hpos, hend⟩
      · have hk' : k < s.rx.cwcnt := by omega
        rw [hold k hk', hcfg]
        exact h.event k hk'
    · by_cases hlast : k + 1 = s.rx.cwcnt
      · have hbefore : (s.mem.readCw k).level = !s.rx.level := by simpa [← hlast] using h.last hovf0 (by omega)
        rw [hlast, hnew, hold k (by omega), hbefore, Bool.not_not]
      · rw [hold k (by omega), hold (k + 1) (by omega)]
        exact h.alternate k (by omega)
    · rw [hcnt, Nat.add_sub_cancel, hnew, hlevel, Bool.not_not]
    · rw [hovf, hovf0] at hset
      cases hset
  · have hfull : s.cfg.cwCap ≤ s.rx.cwcnt := Nat.le_of_not_lt hroom
    obtain ⟨hcnt, hovf⟩ := happ.dropped hfull
    have hold : ∀ k, t.mem.readCw k = s.mem.readCw k := fun k => happ.others k (.inr hfull)
    refine ⟨?_, ?_, fun hclear => ?_, fun _ => by rwa [hcnt, hcfg], fun hnot => absurd hphase hnot⟩
    · simpa only [hcnt, hcfg, hold] using h.event
    · simpa only [hcnt, hold] using h.alternate
    · rw [hovf] at hclear
      cases hclear

/-- An accepted transition in an open message appends its event and opens the data (R117 to R121). -/
theorem rxTransition_open (hs : s.mem.wf) (hp : s.rx.phase ≠ .idle) :
    EventAppended s (rxTransition s.rxIn s.diff s) ∧ (rxTransition s.rxIn s.diff s).cfg = s.cfg ∧
      (rxTransition s.rxIn s.diff s).rx.level = s.rxIn ∧ (rxTransition s.rxIn s.diff s).rx.phase = .data := by
  have hrecord := eventAppended_record hs
  have hrxIn : (record s.rx.level s.diff s).rxIn = s.rxIn := rxIn_of_env (by simp)
  have haccept : EventAppended s (accept (record s.rx.level s.diff s)) :=
    eventAppended_of_same_window hrecord rfl rfl rfl
  cases hphase : s.rx.phase with
  | idle => exact absurd hphase hp
  | start =>
    rw [rxTransition_start hphase]
    exact ⟨eventAppended_of_same_window haccept rfl rfl rfl, by simp, by simp [hrxIn], rfl⟩
  | data =>
    rw [rxTransition_data hphase]
    split
    · exact ⟨eventAppended_of_same_window haccept (by simp) (by simp) (by simp), by simp, by simp [hrxIn],
        by simp [hphase]⟩
    · exact ⟨haccept, by simp, by simp [hrxIn], by simp [hphase]⟩

/-- `RXSTEP` with `G = 0` keeps the window and the message well formed. -/
theorem messageOk_rxStep (hc : configOk s.cfg = true) (hs : s.mem.wf) (hG : flagG s = false) (h : MessageOk s) :
    MessageOk (rxStep s.rxIn s) := by
  rcases rxStep_cases hG with e | ⟨hlevel, hreject, e⟩ <;> rw [e]
  · exact messageOk_of_same_window h rfl s.diff rfl rfl
  · by_cases hp : s.rx.phase = .idle
    · rw [rxTransition_idle hp]
      exact messageOk_of_clean (h.clean (by simp [hp]))
    · obtain ⟨happ, hcfg, hlevel', hdata⟩ := rxTransition_open hs hp
      exact messageOk_of_eventAppended h happ hcfg (hlevel'.trans hlevel) hdata hreject (one_le_diff hc)
        (diff_le_of_open hG hp)

/-- The gate ends the message and leaves the per-message state clean (R111, R162). -/
theorem messageOk_rxGate (hG : flagG s = true) : MessageOk (rxGate s) := by
  rw [rxGate_of_flagG hG]
  exact messageOk_of_clean (by simp)

end Receiver

/-- Settles O16: the transmitter and the commands leave the receiver alone, reset and the gate leave a clean message,
and `RXSTEP` at most appends an event within the thresholds. -/
theorem stepKeepsMessageOk : Obligations.StepKeepsMessageOk := by
  intro s t hs h hstep
  obtain ⟨hc, rfl | rfl | rfl | ⟨hG, rfl⟩ | ⟨hG, rfl⟩⟩ := step_pseudocode_cases hstep
  · exact messageOk_of_same_window (messageOk_resetWith s.cfg) rfl _ rfl rfl
  · have htx := sameOutsideTransmitter_txStep s
    exact messageOk_of_same_window h htx.cfg s.rx.elapsed htx.rx (congrArg Memory.cw htx.mem)
  · obtain ⟨hrx, hcw⟩ := hostCmd_window s.input.cmdValid s.input.cmd s
    exact messageOk_of_same_window h (hostCmd_cfg _ _ s) s.rx.elapsed hrx hcw
  · exact messageOk_rxGate hG
  · exact messageOk_of_same_window (messageOk_rxStep hc hs hG h) rfl _ rfl rfl

section Minima

variable {s : State}

/-- In a well-formed window no minimum is below `RX_REJECT_PERIOD` (R60, R151). -/
theorem reject_le_windowMin (hc : configOk s.cfg = true) (h : MessageOk s) (l : Level) :
    s.cfg.rxRejectPeriod ≤ windowMin s l := by
  refine foldl_preserves _ (fun m : Nat => s.cfg.rxRejectPeriod ≤ m) (fun m k hm => ?_) _ _ (configOk_reject_le hc)
  split
  · next hpick =>
    simp only [eligible, Bool.and_eq_true, decide_eq_true_eq] at hpick
    have hk : k < s.rx.cwcnt := by omega
    obtain ⟨-, hdur, -, -⟩ := h.event k hk
    rw [State.cwEvent, if_pos hk]
    exact Nat.le_min.mpr ⟨hm, hdur⟩
  · exact hm

end Minima

/-- Settles O45: neither minimum is below `RX_REJECT_PERIOD`. -/
theorem subRejectIsNeverSet : Obligations.SubRejectIsNeverSet := by
  intro s hc h
  have hlo := reject_le_windowMin hc h false
  have hhi := reject_le_windowMin hc h true
  simp only [timingCause, causeOf_bits]
  rw [← Bool.not_eq_true, causeSubRej_iff]
  omega

end Sys2Proof.Machine
end

section
/-!
PROOFS. Who writes what: the canonical form kept by every write to a buffer, and the instructions that write the
results, the delivered payload and the frame in flight (R74, R75).
-/

namespace Sys2Proof.Machine

section Frames

variable {s : State}

/-- Every instruction keeps the buffers in canonical form. -/
theorem effect_wf (i : Instr) (h : s.mem.wf) : (effect i s).mem.wf := by
  have haccept : (accept (record s.rx.level s.diff s)).mem.wf := record_wf _ _ h
  cases i with
  | gate v => rw [effect_gate, setRx_mem]; exact finalize_wf h
  | calib | runt | long | recOnly => exact haccept
  | zero | one => exact pushBit_wf _ haccept
  | txpush arg =>
    rw [effect_txpush]
    split
    · exact writeTxbuf_wf _ _ h
    · exact h
  | txclr | txgo => simp only [effect_txclr, effect_txgo]; split <;> exact h
  | _ => exact h

/-- Only `GATE` writes the delivered payload (R75, R160). -/
theorem effect_rxpay {i : Instr} (hg : i.isGate = false) : (effect i s).mem.rxpay = s.mem.rxpay := by
  cases i with
  | gate v => cases hg
  | txclr | txpush | txgo => simp only [effect_txclr, effect_txpush, effect_txgo]; split <;> rfl
  | _ => simp

/-- Only `GATE` and `RXACK` write the result registers (R75). -/
theorem effect_res {i : Instr} (hg : i.isGate = false) (hack : ∀ arg, i ≠ .rxack arg) :
    (effect i s).res = s.res := by
  cases i with
  | gate v => cases hg
  | rxack arg => exact absurd rfl (hack arg)
  | txclr | txpush | txgo => simp only [effect_txclr, effect_txpush, effect_txgo]; split <;> rfl
  | _ => simp

/-- Outside `GATE` no instruction writes more of the results than the two handshake flags (R75, R205). -/
theorem effect_res_handshake {i : Instr} (hg : i.isGate = false) : (effect i s).res =
    { s.res with done := (effect i s).res.done, ovr := (effect i s).res.ovr } := by
  by_cases hack : ∃ arg, i = .rxack arg
  · obtain ⟨arg, rfl⟩ := hack
    rfl
  · rw [effect_res hg fun arg harg => hack ⟨arg, harg⟩]

/-- While a transmission runs no instruction writes the payload being sent: the commands that would are refused
(R74, R202, R203). -/
theorem effect_payload_of_busy (i : Instr) (hbusy : s.tx.phase ≠ .idle) :
    (effect i s).tx.len = s.tx.len ∧ (effect i s).mem.txbuf = s.mem.txbuf := by
  cases i with
  | txclr arg => rw [effect_txclr, if_neg hbusy]; exact ⟨rfl, rfl⟩
  | txpush arg => rw [effect_txpush, if_neg fun hroom => hbusy hroom.1]; exact ⟨rfl, rfl⟩
  | txgo arg => rw [effect_txgo, if_neg hbusy]; exact ⟨rfl, rfl⟩
  | tzero | tone => exact ⟨rfl, rfl⟩
  | _ => simp

/-- The frame is a function of the configuration and of `TXBUF` below `TXLEN` (R180). -/
theorem frame_of_payload {t : State} (hcfg : t.cfg = s.cfg) (hlen : t.tx.len = s.tx.len)
    (hbuf : t.mem.txbuf = s.mem.txbuf) : t.frame = s.frame ∧ t.flen = s.flen := by
  have hbyte : ∀ i ∈ List.range s.tx.len, t.txByte i = s.txByte i := fun i hi => by
    have hi : i < s.tx.len := List.mem_range.mp hi
    simp only [State.txByte, hlen, if_pos hi, Memory.readTxbuf, hbuf]
  have hplain : t.plain = s.plain := by
    rw [State.plain, hlen]
    exact List.map_congr_left hbyte
  exact ⟨by rw [State.frame, State.frame, hcfg, hplain], by rw [State.flen, State.flen, hcfg, hlen]⟩

end Frames

/-- Settles O13: reset empties the buffers, and every instruction writes them by the buffers' own writes. -/
theorem stepKeepsMemoryCanonical : Obligations.StepKeepsMemoryCanonical := by
  intro s t hs hstep
  obtain ⟨-, ⟨-, rfl⟩ | ⟨-, -, rfl⟩ | ⟨-, w, i, -, -, -, rfl⟩⟩ := step_effect_cases hstep
  · exact memory_empty_wf
  · rwa [advance_mem]
  · rw [advance_mem]
    exact effect_wf i hs

/-- Settles O51: the step is an instruction other than `GATE`, or none. -/
theorem resultsChangeOnlyAtTheGate : Obligations.ResultsChangeOnlyAtTheGate := by
  intro s t hstep hr hgate
  obtain ⟨-, ⟨hr', -⟩ | ⟨-, -, rfl⟩ | ⟨-, w, i, hf, hd, -, rfl⟩⟩ := step_effect_cases hstep
  · rw [hr] at hr'
    cases hr'
  · simp
  · have hg := hgate w i hf hd
    simp only [advance_mem, advance_res, Memory.readRxpay, effect_rxpay hg, implies_true, true_and]
    refine ⟨effect_res_handshake hg, fun hack => effect_res hg fun arg harg => ?_⟩
    exact hack w arg hf (harg ▸ hd)

/-- Settles O60: neither an instruction nor the move to the next operation writes the payload in flight. -/
theorem frameInFlightIsConstant : Obligations.FrameInFlightIsConstant := by
  intro s t hr hbusy hstep
  obtain ⟨-, ⟨hr', -⟩ | ⟨-, -, rfl⟩ | ⟨-, w, i, -, -, -, rfl⟩⟩ := step_effect_cases hstep
  · rw [hr] at hr'
    cases hr'
  · exact frame_of_payload (by simp) (by simp) (by simp)
  · obtain ⟨hlen, hbuf⟩ := effect_payload_of_busy i hbusy
    exact frame_of_payload (by simp) (by simp [hlen]) (by simp [hbuf])

end Sys2Proof.Machine
end

section
/-!
PROOFS. The bit assembler over a byte sequence (R66, R67, R140): eight pushed bits are the byte they come from, stored
behind the bytes already there.
-/

namespace Sys2Proof.Machine

section Assembling

/-- The bit shifted in is the lowest; the others move up by one (R140). -/
theorem shiftIn_getLsbD (r : BitVec 8) (b : Bool) {i : Nat} (hi : i < 8) :
    (shiftIn r b).getLsbD i = if i = 0 then b else r.getLsbD (i - 1) := by
  simp only [shiftIn, BitVec.getLsbD_append, BitVec.getLsbD_ofBool, BitVec.getLsbD_extractLsb']
  by_cases h0 : i = 0
  · simp [h0]
  · have h1 : ¬ i < 1 := by omega
    have h7 : i - 1 < 7 := by omega
    simp [h0, h7]

/-- Bits shifted in one after the other stand in the register last one lowest, the older bits above them. -/
theorem foldl_shiftIn_getLsbD (bits : List Bool) (r : BitVec 8) {i : Nat} (hi : i < 8) :
    (bits.foldl shiftIn r).getLsbD i =
      if i < bits.length then bits.reverse.getD i false else r.getLsbD (i - bits.length) := by
  induction bits using List.reverseRecOn generalizing i with
  | nil => simp
  | append_singleton bits b ih =>
    rw [List.foldl_concat, shiftIn_getLsbD _ _ hi, List.reverse_append, List.length_append]
    cases i with
    | zero => simp
    | succ i =>
      rw [if_neg i.succ_ne_zero, Nat.add_sub_cancel, ih (by omega)]
      simp

/-- Eight bits shifted in push the old ones out: in line order they are the byte they come from (R66, R140). -/
theorem foldl_shiftIn_byteBits (r : BitVec 8) (b : Byte) : (byteBits b).foldl shiftIn r = b := by
  refine BitVec.eq_of_getLsbD_eq fun i hi => ?_
  have hlen : (byteBits b).length = 8 := by simp [byteBits]
  have hline : (byteBits b).reverse.getD i false = b.getLsbD (7 - (7 - i)) := by
    rw [List.getD_eq_getElem _ _ (by rw [List.length_reverse, hlen]; exact hi), List.getElem_reverse]
    simp [byteBits]
  rw [foldl_shiftIn_getLsbD _ _ hi, if_pos (by omega), hline]
  congr 1
  omega

theorem pushBits_append (xs ys : List Bool) (s : State) : pushBits (xs ++ ys) s = pushBits ys (pushBits xs s) :=
  List.foldl_append

/-- Bits that do not complete a byte are only shifted in and counted (R140). -/
theorem pushBits_within_byte (bs : List Bool) {s : State} (hskip : s.rx.skip = 0)
    (hfit : s.rx.bitcnt.toNat + bs.length ≤ 7) : pushBits bs s = s.setRx
      { s.rx with shreg := bs.foldl shiftIn s.rx.shreg, bitcnt := s.rx.bitcnt + BitVec.ofNat 3 bs.length } := by
  induction bs generalizing s with
  | nil => simp [pushBits, State.setRx]
  | cons b bs ih =>
    rw [List.length_cons] at hfit
    have hcnt : s.rx.bitcnt ≠ 7 := fun h7 => by
      simp [h7] at hfit
    have hpush : pushBit b s =
        s.setRx { s.rx with shreg := shiftIn s.rx.shreg b, bitcnt := s.rx.bitcnt + 1 } := by
      rcases pushBit_cases b s with ⟨h, -⟩ | ⟨-, h, -⟩ | ⟨-, h, -⟩ | ⟨-, -, e⟩
      · omega
      · exact absurd h hcnt
      · exact absurd h hcnt
      · exact e
    have hnext : (s.rx.bitcnt + 1).toNat = s.rx.bitcnt.toNat + 1 := by bv_omega
    have hsum : s.rx.bitcnt + 1 + BitVec.ofNat 3 bs.length = s.rx.bitcnt + BitVec.ofNat 3 (bs.length + 1) := by
      bv_omega
    calc pushBits (b :: bs) s = pushBits bs (pushBit b s) := rfl
      _ = _ := by
        rw [hpush, ih (by exact hskip) (by simp only [setRx_rx, hnext]; omega)]
        simp only [State.setRx, hsum, List.foldl_cons, List.length_cons]

/-- The bits of a byte, from a byte's beginning, are that byte stored (R66, R140). -/
theorem pushBits_byteBits (b : Byte) {s : State} (hskip : s.rx.skip = 0) (hcnt : s.rx.bitcnt = 0)
    (hroom : s.rx.rxcnt < s.cfg.rxbufCap) : pushBits (byteBits b) s =
      (s.setMem (s.mem.writeRxbuf s.rx.rxcnt b)).setRx
        { s.rx with shreg := b, bitcnt := 0, rxcnt := s.rx.rxcnt + 1 } := by
  obtain ⟨bits, last, hsplit, hlen⟩ : ∃ bits last, byteBits b = bits ++ [last] ∧ bits.length = 7 :=
    ⟨(List.range 7).map fun k => b.getLsbD (7 - k), b.getLsbD 0, by simp [byteBits, List.range_succ], by simp⟩
  have hseven := pushBits_within_byte bits hskip (by simp [hcnt, hlen])
  have hbyte : shiftIn (bits.foldl shiftIn s.rx.shreg) last = b := by
    have hall := foldl_shiftIn_byteBits s.rx.shreg b
    rwa [hsplit, List.foldl_concat] at hall
  rw [hsplit, pushBits_append, hseven, hlen, hcnt]
  simp [pushBits, pushBit, hskip, hroom, hbyte, State.setRx, State.setMem]

/-- The bits of a byte sequence, from a byte's beginning, are stored after the bytes already there. -/
theorem pushBits_bitsOf (bs : List Byte) {s : State} (hs : s.mem.wf) (hskip : s.rx.skip = 0)
    (hcnt : s.rx.bitcnt = 0) (hroom : s.rx.rxcnt + bs.length ≤ s.cfg.rxbufCap) :
    (pushBits (bitsOf bs) s).rx.rxcnt = s.rx.rxcnt + bs.length ∧ (pushBits (bitsOf bs) s).rx.bitcnt = 0 ∧
    (∀ i, i < s.rx.rxcnt → (pushBits (bitsOf bs) s).mem.readRxbuf i = s.mem.readRxbuf i) ∧
    ∀ i, i < bs.length → (pushBits (bitsOf bs) s).mem.readRxbuf (s.rx.rxcnt + i) = bs.getD i 0 := by
  induction bs generalizing s with
  | nil => exact ⟨rfl, hcnt, fun _ _ => rfl, fun i hi => absurd hi (Nat.not_lt_zero i)⟩
  | cons b bs ih =>
    rw [List.length_cons] at hroom ⊢
    have hbits : pushBits (bitsOf (b :: bs)) s = pushBits (bitsOf bs) (pushBits (byteBits b) s) := by
      rw [bitsOf, List.flatMap_cons, pushBits_append]
      rfl
    have hbyte := pushBits_byteBits b hskip hcnt (by omega)
    have hmem : (pushBits (byteBits b) s).mem = s.mem.writeRxbuf s.rx.rxcnt b := by rw [hbyte]; rfl
    have hrxcnt : (pushBits (byteBits b) s).rx.rxcnt = s.rx.rxcnt + 1 := by rw [hbyte]; rfl
    have hroom' : (pushBits (byteBits b) s).rx.rxcnt + bs.length ≤ (pushBits (byteBits b) s).cfg.rxbufCap := by
      rw [hbyte]
      simp only [setRx_rx, setRx_cfg, setMem_cfg]
      omega
    obtain ⟨hcount, hdone, hbelow, hbytes⟩ := ih (hmem ▸ writeRxbuf_wf _ _ hs) (by rw [hbyte]; exact hskip)
      (by rw [hbyte]; rfl) hroom'
    rw [hrxcnt] at hcount hbelow hbytes
    rw [hmem] at hbelow
    rw [hbits]
    refine ⟨by omega, hdone, fun i hi => ?_, fun i hi => ?_⟩
    · rw [hbelow i (by omega), readRxbuf_writeRxbuf_other _ _ hi.ne]
    · cases i with
      | zero =>
        rw [hbelow _ (by omega), Nat.add_zero, readRxbuf_writeRxbuf _ _ hs]
        rfl
      | succ i =>
        rw [show s.rx.rxcnt + (i + 1) = s.rx.rxcnt + 1 + i by omega, hbytes i (by omega)]
        rfl

end Assembling

/-- Settles O39: from an empty `RXBUF`. -/
theorem lineBitsAssembleToTheirBytes : Obligations.LineBitsAssembleToTheirBytes := by
  intro s bs hs hskip hcnt hempty hroom
  obtain ⟨hcount, hdone, -, hbytes⟩ := pushBits_bitsOf bs hs hskip hcnt (by omega)
  rw [hempty] at hcount hbytes
  simp only [Nat.zero_add] at hcount hbytes
  exact ⟨hcount, hdone, hbytes⟩

end Sys2Proof.Machine
end

section
/-!
PROOFS. Decoder and encoder against each other (R90 to R97): a word is put together again from its fields, so each of
the two undoes the other; and the masks of spec/opcode_table.json read as conditions on those fields, so a reachable
word has one row.
-/

namespace Sys2Proof.Machine

section Fields

/-- A vector is made of its bits (R90). -/
theorem vectorOf_of_fields : ∀ v : BitVec 9, vectorOf (v.getLsbD 8) (v.getLsbD 7) (v.getLsbD 6) (v.getLsbD 5)
    (v.extractLsb' 3 2) (v.getLsbD 2) (v.getLsbD 1) (v.getLsbD 0) = v := by decide

/-- A selector is made of its bits (R94). -/
theorem selectorOf_of_fields : ∀ t : BitVec 5, selectorOf (t.getLsbD 4) (t.getLsbD 3) (t.getLsbD 2) (t.getLsbD 1)
    (t.getLsbD 0) = t := by decide

/-- A command word is made of its opcode and argument (R96). -/
theorem commandWord_of_fields (c : BitVec 12) : commandWord (c.extractLsb' 8 4) (c.extractLsb' 0 8) = c :=
  BitVec.extractLsb'_append_extractLsb'

/-- `GATE` keeps the bits below `G` as they are (R91). -/
theorem gateWord_of_low (m x j : Bool) (pp : BitVec 2) (a b c : Bool) :
    BitVec.ofBool true ++ (vectorOf true m x j pp a b c).extractLsb' 0 8 = vectorOf true m x j pp a b c := by
  revert m x j pp a b c; decide

theorem decodeVector_gate (low : BitVec 8) : decodeVector (BitVec.ofBool true ++ low) = .ok (.gate low) := by
  have hg : (BitVec.ofBool true ++ low).getLsbD 8 = true := by revert low; decide
  have hlow : (BitVec.ofBool true ++ low).extractLsb' 0 8 = low := BitVec.extractLsb'_append_eq_right
  simp only [decodeVector, hg, hlow, if_true]

/-- Rule R97's map over the opcode and argument. -/
theorem decodeCommand_commandWord (op : BitVec 4) (arg : Byte) : decodeCommand (commandWord op arg) =
    if op = 0x0 then .nop arg
    else if op = 0x1 then .txclr arg
    else if op = 0x2 then .txpush arg
    else if op = 0x3 then .txgo arg
    else if op = 0x4 then .rxack arg
    else if op = 0x5 then .errclr arg
    else if op.getLsbD 3 then .reserved8F (op.extractLsb' 0 3) arg
    else .reserved67 (op.getLsbD 0) arg := by
  have hop : (commandWord op arg).extractLsb' 8 4 = op := BitVec.extractLsb'_append_eq_left
  have harg : (commandWord op arg).extractLsb' 0 8 = arg := BitVec.extractLsb'_append_eq_right
  simp only [decodeCommand, hop, harg]

/-- The two reserved rows' opcodes (R97, R207): op `0x6`, `0x7` with its bit 0, op `0x8` to `0xF` with its low bits. -/
theorem decodeCommand_reserved67 (lo : Bool) (arg : Byte) :
    decodeCommand (commandWord (0b011#3 ++ BitVec.ofBool lo) arg) = .reserved67 lo arg := by
  cases lo <;> exact decodeCommand_commandWord _ _

theorem decodeCommand_reserved8F (lo : BitVec 3) (arg : Byte) :
    decodeCommand (commandWord (0b1#1 ++ lo) arg) = .reserved8F lo arg := by
  have hop : ∀ lo : BitVec 3, 0b1#1 ++ lo ≠ (0 : BitVec 4) ∧ 0b1#1 ++ lo ≠ (1 : BitVec 4) ∧
      0b1#1 ++ lo ≠ (2 : BitVec 4) ∧ 0b1#1 ++ lo ≠ (3 : BitVec 4) ∧ 0b1#1 ++ lo ≠ (4 : BitVec 4) ∧
      0b1#1 ++ lo ≠ (5 : BitVec 4) ∧ (0b1#1 ++ lo).getLsbD 3 = true := by decide
  have hlo : (0b1#1 ++ lo).extractLsb' 0 3 = lo := BitVec.extractLsb'_append_eq_right
  obtain ⟨h0, h1, h2, h3, h4, h5, hhigh⟩ := hop lo
  rw [decodeCommand_commandWord, if_neg h0, if_neg h1, if_neg h2, if_neg h3, if_neg h4, if_neg h5, if_pos hhigh, hlo]

/-- An opcode from `0x6` on is the one its reserved row encodes again (R97). -/
theorem reservedOpcode_of_bits : ∀ op : BitVec 4, 6 ≤ op.toNat →
    (if op.getLsbD 3 then 0b1#1 ++ op.extractLsb' 0 3 else 0b011#3 ++ BitVec.ofBool (op.getLsbD 0)) = op := by decide

end Fields

/-- The decoder undoes the encoder, for every instruction, reachable or not. -/
theorem decode_encode (i : Instr) : decode (encode i) = .ok i := by
  cases i with
  | gate low => exact decodeVector_gate low
  | hold | noise | first | calib | recOnly => exact decodeVector_vectorOf ..
  | runt | long => exact decodeVector_vectorOf ..
  | zero => exact decodeVector_vectorOf false false true false 2 true false false
  | one => exact decodeVector_vectorOf false false true false 2 true true false
  | tidle | thold | tzero | tone | tend | tdone => exact congrArg Except.ok (decodeSelector_selectorOf ..)
  | reserved67 lo arg => exact congrArg Except.ok (decodeCommand_reserved67 lo arg)
  | reserved8F lo arg => exact congrArg Except.ok (decodeCommand_reserved8F lo arg)
  | nop | txclr | txpush | txgo | rxack | errclr => exact congrArg Except.ok (decodeCommand_commandWord ..)

/-- Settles O1. -/
theorem decodeOfEncodeIsIdentity : Obligations.DecodeOfEncodeIsIdentity := fun i _ => decode_encode i

theorem encode_decodeVector {v : BitVec 9} {i : Instr} (h : decodeVector v = .ok i) : encode i = .vector v := by
  rw [← vectorOf_of_fields v] at h ⊢
  generalize v.getLsbD 8 = g, v.getLsbD 7 = m, v.getLsbD 6 = x, v.getLsbD 5 = j, v.extractLsb' 3 2 = pp,
    v.getLsbD 2 = a, v.getLsbD 1 = b, v.getLsbD 0 = c at h ⊢
  rw [decodeVector_vectorOf] at h
  split_ifs at h with hg hx hj h0 h1 h2 hm hc ha hb <;> cases h
  · rw [hg]
    exact congrArg Word.vector (gateWord_of_low ..)
  all_goals simp_all [encode]

theorem encode_decodeSelector (t : BitVec 5) : encode (decodeSelector t) = .selector t := by
  rw [← selectorOf_of_fields t]
  generalize t.getLsbD 4 = i, t.getLsbD 3 = h, t.getLsbD 2 = e, t.getLsbD 1 = r, t.getLsbD 0 = bt
  rw [decodeSelector_selectorOf]
  split_ifs <;> simp_all [encode]

theorem encode_decodeCommand (c : BitVec 12) : encode (decodeCommand c) = .command c := by
  rw [← commandWord_of_fields c]
  generalize c.extractLsb' 8 4 = op, c.extractLsb' 0 8 = arg
  have hbits := reservedOpcode_of_bits op
  rw [decodeCommand_commandWord]
  split_ifs with h0 h1 h2 h3 h4 h5 h8
  iterate 6 · simp_all [encode]
  · rw [if_pos h8] at hbits
    exact congrArg (fun o => Word.command (commandWord o arg)) (hbits (by bv_omega))
  · rw [if_neg h8] at hbits
    exact congrArg (fun o => Word.command (commandWord o arg)) (hbits (by bv_omega))

/-- Settles O2: code space by code space. -/
theorem encodeOfDecodeIsIdentity : Obligations.EncodeOfDecodeIsIdentity := by
  intro w i h
  cases w with
  | vector v => exact encode_decodeVector h
  | selector t => cases h; exact encode_decodeSelector t
  | command c => cases h; exact encode_decodeCommand c

section Rows

/-- The masks of rule R91 as conditions on the vector's bits. -/
theorem classifierRows_match (g m x j : Bool) (pp : BitVec 2) (a b c : Bool) :
    classifierRows.map (fun r => rowMatches r (.vector (vectorOf g m x j pp a b c))) =
      [g, !x, x && j, x && !j && pp == 0, x && !j && pp == 1, !m && x && !j && pp == 2 && !a,
        !m && x && !j && pp == 2 && a && !b, !m && x && !j && pp == 2 && a && b && !c,
        !m && x && !j && pp == 2 && c, m && x && !j && pp == 2] := by
  revert g m x j pp a b c; decide

/-- The masks of rule R94 as conditions on the selector's bits. -/
theorem selectorRows_match (i h e r bt : Bool) :
    selectorRows.map (fun row => rowMatches row (.selector (selectorOf i h e r bt))) =
      [i, !i && h, !i && !h && !e && r && !bt, !i && !h && !e && r && bt, !i && !h && !e && !r, !i && !h && e] := by
  revert i h e r bt; decide

/-- A mask that spares the argument's bits looks at the opcode only (R96). -/
theorem commandWord_and_mask (op : BitVec 4) (arg : Byte) (k : Nat) :
    (commandWord op arg).toNat &&& k <<< 8 = (op.toNat &&& k) <<< 8 := by
  refine Nat.eq_of_testBit_eq fun i => ?_
  rw [Nat.testBit_and, Nat.testBit_shiftLeft, Nat.testBit_shiftLeft, Nat.testBit_and, BitVec.testBit_toNat,
    BitVec.testBit_toNat, commandWord, BitVec.getLsbD_append]
  by_cases h : i < 8
  · simp [h, Nat.not_le.mpr h]
  · simp [h, Nat.le_of_not_lt h]

/-- The masks of rule R97 as conditions on the opcode. -/
theorem commandRows_match (op : BitVec 4) (arg : Byte) :
    commandRows.map (fun r => rowMatches r (.command (commandWord op arg))) =
      [op == 0, op == 1, op == 2, op == 3, op == 4, op == 5, op == 6 || op == 7, op.getLsbD 3] := by
  have hF := commandWord_and_mask op arg 0xF
  have hE := commandWord_and_mask op arg 0xE
  have h8 := commandWord_and_mask op arg 0x8
  simp only [Nat.reduceShiftLeft] at hF hE h8
  simp only [commandRows, List.map_cons, List.map_nil, rowMatches, wordBits, wordSpace, hF, hE, h8]
  clear hF hE h8
  revert op
  decide

/-- No row of another code space matches. -/
theorem rowMatches_space {r : TableRow} {w : Word} (h : rowMatches r w = true) : r.space = wordSpace w := by
  simp only [rowMatches, Bool.and_eq_true, beq_iff_eq] at h
  exact h.1

end Rows

/-- The rows of a code space. -/
def rowsOf : CodeSpace → List TableRow
  | .vector => classifierRows
  | .selector => selectorRows
  | .command => commandRows

theorem mem_rowsOf_space : ∀ r ∈ opcodeTable, r ∈ rowsOf r.space := by decide

/-- A row with an instruction's name lies in the code space of the instruction's word. -/
theorem space_of_mnemonic (i : Instr) :
    ∀ r ∈ opcodeTable, r.mnemonic = i.mnemonic → r.space = wordSpace (encode i) := by
  cases i with
  | _ => simp only [Instr.mnemonic, encode, wordSpace]; decide

/-- `C = 1` comes with `A = B = 1` (R92). -/
theorem thermometer_of_c (a b : Bool) : thermometer a b true = true ↔ a = true ∧ b = true := by
  revert a b; decide

/-- A reachable vector other than `GATE` has one row among those of rule R91, that of its class. -/
theorem classifierRows_of_decode {v : BitVec 9} {i : Instr} (hd : decodeVector v = .ok i) (hw : i.wellFormed = true)
    (hg : i.isGate = false) :
    classifierRows.map (fun r => rowMatches r (.vector v)) = classifierRows.map (·.mnemonic == i.mnemonic) := by
  rw [← vectorOf_of_fields v] at hd ⊢
  generalize v.getLsbD 8 = g, v.getLsbD 7 = m, v.getLsbD 6 = x, v.getLsbD 5 = j, v.extractLsb' 3 2 = pp,
    v.getLsbD 2 = a, v.getLsbD 1 = b, v.getLsbD 0 = c at hd ⊢
  rw [decodeVector_vectorOf] at hd
  rw [classifierRows_match]
  split_ifs at hd with hG hx hj h0 h1 h2 hm hc ha hb <;> cases hd
  · cases hg
  all_goals simp_all [classifierRows, Instr.mnemonic, Instr.wellFormed, thermometer_of_c]

/-- A selector has one row, that of its action (R94). -/
theorem selectorRows_of_decode (t : BitVec 5) :
    selectorRows.map (fun r => rowMatches r (.selector t)) =
      selectorRows.map (·.mnemonic == (decodeSelector t).mnemonic) := by
  rw [← selectorOf_of_fields t]
  generalize t.getLsbD 4 = i, t.getLsbD 3 = h, t.getLsbD 2 = e, t.getLsbD 1 = r, t.getLsbD 0 = bt
  rw [decodeSelector_selectorOf, selectorRows_match]
  split_ifs <;> simp_all [selectorRows, Instr.mnemonic]

/-- A command word has one row, that of its command (R97). -/
theorem commandRows_of_decode (c : BitVec 12) :
    commandRows.map (fun r => rowMatches r (.command c)) =
      commandRows.map (·.mnemonic == (decodeCommand c).mnemonic) := by
  rw [← commandWord_of_fields c]
  generalize c.extractLsb' 8 4 = op, c.extractLsb' 0 8 = arg
  have hreserved : ∀ op : BitVec 4, op ≠ 0 → op ≠ 1 → op ≠ 2 → op ≠ 3 → op ≠ 4 → op ≠ 5 →
      (op == 6 || op == 7) = !op.getLsbD 3 ∧ (op.getLsbD 3 = true → op ≠ 6 ∧ op ≠ 7) := by decide
  rw [decodeCommand_commandWord, commandRows_match]
  split_ifs with h0 h1 h2 h3 h4 h5 h8
  all_goals simp_all [commandRows, Instr.mnemonic]

/-- A reachable word other than `GATE` has one row in its own code space. -/
theorem rowMatches_of_decode {w : Word} {i : Instr} (hd : decode w = .ok i) (hw : i.wellFormed = true)
    (hg : i.isGate = false) : ∀ r ∈ rowsOf (wordSpace w), rowMatches r w = (r.mnemonic == i.mnemonic) := by
  cases w with
  | vector v => exact List.map_inj_left.mp (classifierRows_of_decode hd hw hg)
  | selector t => cases hd; exact List.map_inj_left.mp (selectorRows_of_decode t)
  | command c => cases hd; exact List.map_inj_left.mp (commandRows_of_decode c)

/-- Settles O3: a row that matches, and a row of the instruction's name, are both rows of the word's code space. -/
theorem reachableWordHasOneRow : Obligations.ReachableWordHasOneRow := by
  intro w i hd hw hg r hr
  have hone : r.space = wordSpace w → rowMatches r w = (r.mnemonic == i.mnemonic) := fun hspace =>
    rowMatches_of_decode hd hw hg r (hspace ▸ mem_rowsOf_space r hr)
  constructor
  · intro hm
    exact beq_iff_eq.mp ((hone (rowMatches_space hm)).symm.trans hm)
  · intro hn
    have hspace := space_of_mnemonic i r hr hn
    rw [encodeOfDecodeIsIdentity w i hd] at hspace
    exact (hone hspace).trans (beq_iff_eq.mpr hn)

/-- Settles O4. -/
theorem wordsFromTheSpecDecode : Obligations.WordsFromTheSpecDecode := by
  unfold Obligations.WordsFromTheSpecDecode
  decide

end Sys2Proof.Machine
end

section
/-!
PROOFS. The step never stops, and the transmit path step by step: what each action of `TXSTEP` does, and the invariant
of the transmitter's registers (R81, R183 to R191).
-/

namespace Sys2Proof.Machine

/-- Settles O9: reset, `TXSTEP`, `HOSTCMD`, the gate or the class of `RXSTEP`, each has its step. -/
theorem everyStepGoesOn : Obligations.EveryStepGoesOn := by
  intro s hc
  cases hr : s.input.rst with
  | true => exact ⟨_, step_of_reset hc hr⟩
  | false =>
    cases hs : s.env.slot with
    | tx => exact ⟨_, step_txSlot hc hr hs⟩
    | host => exact ⟨_, step_hostSlot hc hr hs⟩
    | rx =>
      cases hG : flagG s with
      | true => exact ⟨_, step_rxSlot_gate hc hr hs hG⟩
      | false => exact ⟨_, step_rxSlot_class hc hr hs hG⟩

/-- Settles O6: `hostCmd` without a command is the identity. -/
theorem noCommandDoesNothing : Obligations.NoCommandDoesNothing := by
  intro s hc hr hs hv
  have hstep := step_hostSlot hc hr hs
  rw [hv] at hstep
  exact hstep

/-- Settles O25. -/
theorem tidleAndTholdEffects : Obligations.TidleAndTholdEffects := by
  intro s h e r bt
  refine ⟨decode_encode (.tidle h e r bt), decode_encode (.thold e r bt), exec_eq_effect _ s, fun hhold => ?_⟩
  refine ⟨_, exec_eq_effect _ s, ?_, rfl, rfl, rfl, rfl, rfl, rfl, rfl, rfl⟩
  rw [effect_thold, setTx_tx]
  exact Nat.sub_add_cancel hhold.le

theorem sameOutsideTransmitter_sendBit (hold : Nat) (s : State) : SameOutsideTransmitter s (sendBit hold s) :=
  ⟨rfl, rfl, rfl, rfl, rfl, rfl, rfl⟩

/-- Settles O26: both are `sendBit`. -/
theorem tzeroAndToneSendABit : Obligations.TzeroAndToneSendABit := fun s =>
  ⟨decode_encode .tzero, decode_encode .tone,
    ⟨_, exec_eq_effect .tzero s, rfl, rfl, rfl, rfl, sameOutsideTransmitter_sendBit _ s⟩,
    ⟨_, exec_eq_effect .tone s, rfl, rfl, rfl, rfl, sameOutsideTransmitter_sendBit _ s⟩⟩

/-- Settles O27. -/
theorem tendAndTdoneEndTheTransmission : Obligations.TendAndTdoneEndTheTransmission := fun s r bt =>
  ⟨decode_encode (.tend bt), decode_encode (.tdone r bt),
    ⟨_, exec_eq_effect (.tend bt) s, rfl, rfl, rfl, rfl, rfl, rfl, rfl, rfl, rfl, rfl, rfl⟩,
    ⟨_, exec_eq_effect (.tdone r bt) s, rfl, rfl, rfl, rfl, rfl, rfl, rfl, rfl, rfl, rfl, rfl⟩⟩

section InStep

variable {s t : State}

/-- `TxInStep` speaks of the transmit path and the configuration only. -/
theorem txInStep_of_same (h : TxInStep s) (hcfg : t.cfg = s.cfg) (htx : t.tx = s.tx) : TxInStep t := by
  have hflen : t.flen = s.flen := by rw [State.flen, State.flen, hcfg, htx]
  obtain ⟨hidle, hstart, hdata, hend⟩ := h
  constructor <;> simpa only [htx, hcfg, hflen]

/-- What rule R6 says of the hold times: each is at least one tick. -/
theorem configOk_holds_pos {c : Config} (h : configOk c = true) :
    1 ≤ c.txUnitPeriod ∧ 1 ≤ startPulse c ∧ 1 ≤ c.txEndPeriod := by
  simp only [configOk, Bool.and_eq_true, decide_eq_true_eq] at h
  obtain ⟨⟨⟨-, hunit, -⟩, hstart, -⟩, hend, -⟩ := h
  exact ⟨hunit, hstart, hend⟩

/-- An idle transmitter is in step whatever its payload (R190). -/
theorem txInStep_of_idle (hp : t.tx.phase = .idle) (hl : t.tx.level = false) (hh : t.tx.hold = 0) : TxInStep t where
  idle _ := ⟨hl, hh⟩
  start h := by rw [hp] at h; cases h
  data h := by rw [hp] at h; cases h
  ending h := by rw [hp] at h; cases h

/-- The start pulse begins in step (R183). -/
theorem txInStep_startTx (hc : configOk s.cfg = true) : TxInStep (startTx s) where
  idle h := nomatch h
  start _ := ⟨rfl, rfl, (configOk_holds_pos hc).2.1, Nat.le_refl _⟩
  data h := nomatch h
  ending h := nomatch h

/-- With a bit remaining, the level that goes with `TXIDX` stays the one that goes with it (R81, R187, R188). -/
theorem txInStep_sendBit {hold : Nat} (hlevel : s.tx.level = (s.tx.idx % 2 == 0)) (hidx : s.tx.idx < 8 * s.flen)
    (hpos : 1 ≤ hold) (hle : hold ≤ 2 * s.cfg.txUnitPeriod) : TxInStep (sendBit hold s) where
  idle h := nomatch h
  start h := nomatch h
  data _ := by
    refine ⟨?_, Nat.succ_pos _, hidx, hpos, hle⟩
    show (!s.tx.level) = ((s.tx.idx + 1) % 2 == 0)
    rw [hlevel, Bool.eq_iff_iff]
    simp
    omega
  ending h := nomatch h

end InStep

section TxStep

variable {s : State}

/-- `TIDLE` (R185). -/
theorem txStep_of_idle (hp : s.tx.phase = .idle) : txStep s = s := if_pos hp

/-- `THOLD` (R186). -/
theorem txStep_of_hold (hp : s.tx.phase ≠ .idle) (hh : 1 < s.tx.hold) :
    txStep s = s.setTx { s.tx with hold := s.tx.hold - 1 } := by
  rw [txStep, if_neg hp, if_pos hh]

/-- `TDONE` (R190). -/
theorem txStep_of_done (hp : s.tx.phase = .end_) (hh : s.tx.hold ≤ 1) :
    txStep s = s.setTx { s.tx with phase := .idle, hold := 0 } := by
  rw [txStep, if_neg (by rw [hp]; decide), if_neg (by omega), if_pos hp]

/-- `TZERO` and `TONE` (R187, R188). -/
theorem txStep_of_bit (hp : s.tx.phase ≠ .idle) (he : s.tx.phase ≠ .end_) (hh : s.tx.hold ≤ 1)
    (hi : s.tx.idx < 8 * s.flen) : txStep s =
      sendBit (if s.frameBit s.tx.idx then 2 * s.cfg.txUnitPeriod else s.cfg.txUnitPeriod) s := by
  rw [txStep, if_neg hp, if_neg (by omega), if_neg he, if_pos hi]
  rfl

/-- `TEND` (R189). -/
theorem txStep_of_end (hp : s.tx.phase ≠ .idle) (he : s.tx.phase ≠ .end_) (hh : s.tx.hold ≤ 1)
    (hi : 8 * s.flen ≤ s.tx.idx) :
    txStep s = s.setTx { s.tx with level := false, hold := s.cfg.txEndPeriod, phase := .end_ } := by
  rw [txStep, if_neg hp, if_neg (by omega), if_neg he, if_neg (by omega)]

/-- One tick less to hold, at least one left, keeps the registers in step (R186). -/
theorem txInStep_hold (h : TxInStep s) (hp : s.tx.phase ≠ .idle) (hh : 1 < s.tx.hold) :
    TxInStep (s.setTx { s.tx with hold := s.tx.hold - 1 }) where
  idle hidle := absurd hidle hp
  start hstart := by
    obtain ⟨hlevel, hidx, -, hle⟩ := h.start hstart
    exact ⟨hlevel, hidx, Nat.le_sub_of_add_le hh, (Nat.sub_le _ _).trans hle⟩
  data hdata := by
    obtain ⟨hlevel, hpos, hidx, -, hle⟩ := h.data hdata
    exact ⟨hlevel, hpos, hidx, Nat.le_sub_of_add_le hh, (Nat.sub_le _ _).trans hle⟩
  ending hend := by
    obtain ⟨hlevel, hidx, -, hle⟩ := h.ending hend
    exact ⟨hlevel, hidx, Nat.le_sub_of_add_le hh, (Nat.sub_le _ _).trans hle⟩

/-- While start pulse or data runs, the level goes with `TXIDX`, which counts bits of the frame. -/
theorem txInStep_sending (h : TxInStep s) (hp : s.tx.phase ≠ .idle) (he : s.tx.phase ≠ .end_) :
    s.tx.level = (s.tx.idx % 2 == 0) ∧ s.tx.idx ≤ 8 * s.flen := by
  cases hphase : s.tx.phase with
  | idle => exact absurd hphase hp
  | end_ => exact absurd hphase he
  | start =>
    obtain ⟨hlevel, hidx, -, -⟩ := h.start hphase
    rw [hlevel, hidx]
    exact ⟨rfl, Nat.zero_le _⟩
  | data =>
    obtain ⟨hlevel, -, hidx, -, -⟩ := h.data hphase
    exact ⟨hlevel, hidx⟩

/-- `TXSTEP` keeps the registers in step. -/
theorem txInStep_txStep (hc : configOk s.cfg = true) (h : TxInStep s) : TxInStep (txStep s) := by
  obtain ⟨hunit, -, hendPos⟩ := configOk_holds_pos hc
  by_cases hp : s.tx.phase = .idle
  · rwa [txStep_of_idle hp]
  by_cases hh : 1 < s.tx.hold
  · rw [txStep_of_hold hp hh]
    exact txInStep_hold h hp hh
  have hh : s.tx.hold ≤ 1 := Nat.le_of_not_lt hh
  by_cases he : s.tx.phase = .end_
  · rw [txStep_of_done he hh]
    exact txInStep_of_idle rfl (h.ending he).1 rfl
  obtain ⟨hlevel, hidx⟩ := txInStep_sending h hp he
  by_cases hbit : s.tx.idx < 8 * s.flen
  · rw [txStep_of_bit hp he hh hbit]
    exact txInStep_sendBit hlevel hbit (by split <;> omega) (by split <;> omega)
  · have hall : 8 * s.flen ≤ s.tx.idx := Nat.le_of_not_lt hbit
    rw [txStep_of_end hp he hh hall]
    exact
      { idle := fun hx => nomatch hx
        start := fun hx => nomatch hx
        data := fun hx => nomatch hx
        ending := fun _ => ⟨rfl, Nat.le_antisymm hidx hall, hendPos, Nat.le_refl _⟩ }

/-- A command keeps the registers in step: while idle it changes at most the payload or starts the pulse, and while a
transmission runs it changes nothing of the transmit path (R192, R202 to R204). -/
theorem txInStep_effect_command {i : Instr} (hi : i.isCommand = true) (hc : configOk s.cfg = true)
    (h : TxInStep s) : TxInStep (effect i s) := by
  cases i with
  | txclr arg =>
    rw [effect_txclr]
    split
    · next hp => exact txInStep_of_idle hp (h.idle hp).1 (h.idle hp).2
    · exact txInStep_of_same h rfl rfl
  | txpush arg =>
    rw [effect_txpush]
    split
    · next hp => exact txInStep_of_idle hp.1 (h.idle hp.1).1 (h.idle hp.1).2
    · exact txInStep_of_same h rfl rfl
  | txgo arg =>
    rw [effect_txgo]
    split
    · exact txInStep_startTx hc
    · exact txInStep_of_same h rfl rfl
  | nop | rxack | errclr | reserved67 | reserved8F => exact txInStep_of_same h rfl rfl
  | _ => cases hi

theorem txInStep_hostCmd (v : Bool) (c : BitVec 12) (hc : configOk s.cfg = true) (h : TxInStep s) :
    TxInStep (hostCmd v c s) := by
  cases v with
  | false => exact h
  | true =>
    rw [← effect_decodeCommand]
    exact txInStep_effect_command (decodeCommand_isCommand c) hc h

end TxStep

/-- The receiver leaves the configuration and the transmit path alone (R73). -/
theorem rxTransition_tx (l : Level) (d : Nat) (s : State) :
    (rxTransition l d s).cfg = s.cfg ∧ (rxTransition l d s).tx = s.tx := by
  unfold rxTransition
  cases s.rx.phase with
  | idle => exact ⟨rfl, rfl⟩
  | start => simp
  | data => dsimp only; split <;> simp

theorem rxGate_tx (s : State) : (rxGate s).cfg = s.cfg ∧ (rxGate s).tx = s.tx := by
  unfold rxGate
  split <;> simp

theorem rxStep_tx (l : Level) (s : State) : (rxStep l s).cfg = s.cfg ∧ (rxStep l s).tx = s.tx := by
  obtain ⟨hcfg, htx⟩ := rxGate_tx s
  simp only [rxStep]
  split_ifs
  · exact ⟨hcfg, htx⟩
  · exact ⟨hcfg, htx⟩
  · obtain ⟨hcfg', htx'⟩ := rxTransition_tx l s.diff (rxGate s)
    exact ⟨hcfg'.trans hcfg, htx'.trans htx⟩

/-- Settles O15: by the piece of the tick that the step is. -/
theorem stepKeepsTransmitterInStep : Obligations.StepKeepsTransmitterInStep := by
  intro s t h hstep
  obtain ⟨hc, rfl | rfl | rfl | ⟨-, rfl⟩ | ⟨-, rfl⟩⟩ := step_pseudocode_cases hstep
  · exact txInStep_of_idle rfl rfl rfl
  · exact txInStep_of_same (txInStep_txStep hc h) rfl rfl
  · exact txInStep_of_same (txInStep_hostCmd _ _ hc h) rfl rfl
  · exact txInStep_of_same h (rxGate_tx s).1 (rxGate_tx s).2
  · exact txInStep_of_same h (rxStep_tx _ s).1 (rxStep_tx _ s).2

end Sys2Proof.Machine
end

section
/-!
PROOFS. The frame (R84 to R86, R180): its layout, how the host loads its payload (R202, R203), and how the framer's
checks read it back (R156 to R159).
-/

namespace Sys2Proof.Machine

section Layout

variable (c : Config) (p : List Byte)

theorem lenField_length (l : LenBytes) (n : Nat) : (lenField l n).length = l.toNat := by cases l <;> rfl

@[simp] theorem ciphAll_length : (ciphAll c p).length = p.length := List.length_mapIdx

/-- A frame is a head of `4 + LEN_BYTES` bytes, the encrypted payload and the checksum (R84). -/
theorem frameOf_head_length : (sig ++ lenField c.lenBytes p.length).length = payloadAt c := by
  rw [List.length_append, lenField_length]
  rfl

theorem frameOf_length : (frameOf c p).length = payloadAt c + p.length + 1 := by
  rw [frameOf, List.length_append, List.length_append, frameOf_head_length, ciphAll_length]
  rfl

/-- What follows the head is the encrypted payload and its checksum. -/
theorem frameOf_drop_head : (frameOf c p).drop (payloadAt c) = ciphAll c p ++ [xorFold (ciphAll c p)] := by
  rw [frameOf, List.append_assoc, ← frameOf_head_length c p, List.drop_left]

theorem frameOf_getD_afterHead (i : Nat) :
    (frameOf c p).getD (payloadAt c + i) 0 = (ciphAll c p ++ [xorFold (ciphAll c p)]).getD i 0 := by
  rw [← frameOf_drop_head, List.getD_eq_getElem?_getD, List.getD_eq_getElem?_getD, List.getElem?_drop]

/-- Payload byte `i` goes through the cipher at offset `i` (R170, R171). -/
theorem ciphAll_getD {i : Nat} (hi : i < p.length) : (ciphAll c p).getD i 0 = ciph c (p.getD i 0) i := by
  simp [ciphAll, hi]

theorem frameOf_payload {i : Nat} (hi : i < p.length) :
    (frameOf c p).getD (payloadAt c + i) 0 = ciph c (p.getD i 0) i := by
  rw [frameOf_getD_afterHead, List.getD_append _ _ _ _ (by simpa using hi), ciphAll_getD c p hi]

theorem frameOf_checksum : (frameOf c p).getD (payloadAt c + p.length) 0 = xorFold (ciphAll c p) := by
  rw [frameOf_getD_afterHead, List.getD_append_right _ _ _ _ (by simp)]
  simp

/-- The signature comes first (R84). -/
theorem frameOf_sig {i : Nat} (hi : i < 4) : (frameOf c p).getD i 0 = sig.getD i 0 := by
  rw [frameOf, List.append_assoc, List.append_assoc, List.getD_append _ _ _ _ hi]

/-- The length field comes next (R85). -/
theorem frameOf_lenField {i : Nat} (hi : i < c.lenBytes.toNat) :
    (frameOf c p).getD (4 + i) 0 = (lenField c.lenBytes p.length).getD i 0 := by
  have hi' : i < (lenField c.lenBytes p.length).length := by rwa [lenField_length]
  have h4 : sig.length = 4 := rfl
  rw [frameOf, List.append_assoc, List.append_assoc, List.getD_append_right _ _ _ _ (by omega), h4,
    Nat.add_sub_cancel_left, List.getD_append _ _ _ _ hi']

theorem xorFold_concat (bs : List Byte) (b : Byte) : xorFold (bs ++ [b]) = xorFold bs ^^^ b := List.foldl_concat ..

/-- The length field, high byte first, reads back as the length (R67, R85). -/
theorem lenField_reads {l : LenBytes} {n : Nat} (hn : n < 2 ^ (8 * l.toNat)) :
    (lenField l n).foldl (fun n b => 256 * n + b.toNat) 0 = n := by
  cases l <;> simp only [LenBytes.toNat] at hn <;> simp [lenField] <;> omega

/-- A full payload's length fits the length field (R6). -/
theorem configOk_txbufCap {c : Config} (h : configOk c = true) : c.txbufCap < 2 ^ (8 * c.lenBytes.toNat) := by
  simp only [configOk, Bool.and_eq_true, decide_eq_true_eq] at h
  omega

end Layout

/-- Settles O41: part by part of `frameOf`. -/
theorem frameLayout : Obligations.FrameLayout := by
  intro c p hc hp
  have hhead : payloadAt c = 4 + c.lenBytes.toNat := rfl
  refine ⟨frameOf_length c p, rfl, ?_, lenField_reads (hp.trans_lt (configOk_txbufCap hc)),
    fun i hi => frameOf_payload c p hi, ?_⟩
  · have hafter : (frameOf c p).drop 4 =
        lenField c.lenBytes p.length ++ (ciphAll c p ++ [xorFold (ciphAll c p)]) := by
      rw [frameOf, List.append_assoc, List.append_assoc]
      rfl
    rw [hafter, ← lenField_length c.lenBytes p.length, List.take_left]
  · rw [← hhead, frameOf_drop_head, xorFold_concat]
    exact BitVec.xor_self

/-- A state with the payload loaded and everything the receiver and the host see as before (R202, R203, R209). -/
structure Loaded (s : State) (bs : List Byte) (t : State) : Prop where
  phase : t.tx.phase = .idle
  len : t.tx.len = bs.length
  bytes : ∀ i, i < bs.length → t.mem.readTxbuf i = bs.getD i 0
  wf : t.mem.wf
  cfg : t.cfg = s.cfg
  rx : t.rx = s.rx
  res : t.res = s.res
  cmdErr : t.cmdErr = s.cmdErr

section Loading

variable {s t : State} {bs : List Byte}

/-- `TXCLR` of an idle transmitter loads the empty payload. -/
theorem loaded_txclr (hs : s.mem.wf) (hp : s.tx.phase = .idle) (arg : Byte) :
    Loaded s [] (effect (.txclr arg) s) := by
  rw [effect_txclr, if_pos hp]
  exact ⟨hp, rfl, fun i hi => absurd hi (Nat.not_lt_zero i), hs, rfl, rfl, rfl, rfl⟩

/-- `TXPUSH` with room loads one byte more. -/
theorem loaded_txpush (h : Loaded s bs t) (hroom : bs.length < s.cfg.txbufCap) (b : Byte) :
    Loaded s (bs ++ [b]) (effect (.txpush b) t) := by
  rw [effect_txpush, if_pos ⟨h.phase, by rw [h.len, h.cfg]; exact hroom⟩, h.len]
  refine ⟨h.phase, ?_, fun i hi => ?_, writeTxbuf_wf _ _ h.wf, h.cfg, h.rx, h.res, h.cmdErr⟩
  · simp
  · rw [setTx_mem, setMem_mem]
    rcases Nat.lt_succ_iff_lt_or_eq.mp (by simpa using hi) with hlt | rfl
    · rw [readTxbuf_writeTxbuf_other _ _ hlt.ne, h.bytes i hlt, List.getD_append _ _ _ _ hlt]
    · rw [readTxbuf_writeTxbuf _ _ h.wf, List.getD_append_right _ _ _ _ (Nat.le_refl _)]
      simp

/-- One `TXPUSH` a byte loads the bytes behind those already loaded. -/
theorem loaded_pushes (cs : List Byte) (h : Loaded s bs t) (hroom : bs.length + cs.length ≤ s.cfg.txbufCap) :
    Loaded s (bs ++ cs) (cs.foldl (fun u b => effect (.txpush b) u) t) := by
  induction cs generalizing bs t with
  | nil => simpa using h
  | cons c cs ih =>
    rw [List.length_cons] at hroom
    have hnext := ih (loaded_txpush h (by omega) c) (by simp; omega)
    simpa using hnext

/-- `TXBUF[0 .. TXLEN-1]` is then the payload (R54). -/
theorem loaded_plain (h : Loaded s bs t) : t.plain = bs := by
  refine List.ext_getElem (by simp [State.plain, h.len]) fun i hi hi' => ?_
  have hbyte := h.bytes i hi'
  rw [List.getD_eq_getElem _ _ hi'] at hbyte
  simp [State.plain, State.txByte, h.len, hi', hbyte]

/-- Running `TXPUSH` after `TXPUSH`, each on what the one before answered, is running their effects. -/
theorem foldl_exec_txpush (f : Host.Outcome State Fault Refusal → Byte → Host.Outcome State Fault Refusal)
    (hf : ∀ u b, f (.next u) b = exec (.txpush b) u) (cs : List Byte) (t : State) :
    cs.foldl f (.next t) = .next (cs.foldl (fun u b => effect (.txpush b) u) t) := by
  induction cs generalizing t with
  | nil => rfl
  | cons c cs ih => rw [List.foldl_cons, hf, exec_eq_effect, ih, List.foldl_cons]

end Loading

/-- Settles O35: the clear loads nothing, and the pushes then load the bytes. -/
theorem clearAndPushesLoadThePayload : Obligations.ClearAndPushesLoadThePayload := by
  intro s bs hs hp hroom
  have hload := loaded_pushes bs (loaded_txclr hs hp 0) (by simpa using hroom)
  rw [List.nil_append] at hload
  refine ⟨_, ?_, loaded_plain hload, hload.len, hload.phase, ?_, hload.cfg, hload.rx, hload.res, hload.cmdErr⟩
  · rw [exec_eq_effect]
    exact foldl_exec_txpush _ (fun _ _ => rfl) bs _
  · rw [State.frame, loaded_plain hload, hload.cfg]

section Framer

variable {s t : State}

/-- With clear causes and a complete frame only the checksum decides (R159, R229). -/
theorem verdict_of_complete (hmin : s.cfg.minRxBytes ≤ s.rx.rxcnt) (hsig : sigOk s = true)
    (hlen : payloadAt s.cfg + rxLenField s + 1 ≤ s.rx.rxcnt) : verdict s 0 =
      if xorFold (wirePayload s (rxLenField s)) = s.rxByte (payloadAt s.cfg + rxLenField s) then .ok
      else .checksumMismatch := by
  rw [verdict, if_neg (by simp), if_neg (by omega), if_neg (by simp [hsig]), if_neg (by omega), if_neg (by omega),
    ite_not]

theorem sigOk_iff (s : State) : sigOk s = true ↔ 4 ≤ s.rx.rxcnt ∧ ∀ i, i < 4 → s.rxByte i = sig.getD i 0 := by
  simp only [sigOk, Bool.and_eq_true, decide_eq_true_eq, List.all_eq_true, List.mem_range, beq_iff_eq]

/-- The signature test reads the first four bytes (R156). -/
theorem sigOk_congr (hcnt : t.rx.rxcnt = s.rx.rxcnt) (hbyte : ∀ i, i < 4 → t.rxByte i = s.rxByte i) :
    sigOk t = sigOk s := by
  rw [Bool.eq_iff_iff, sigOk_iff, sigOk_iff, hcnt]
  exact and_congr_right fun _ => forall₂_congr fun i hi => by rw [hbyte i hi]

/-- The length field is read from the head (R157). -/
theorem rxLenField_congr (hcfg : t.cfg = s.cfg) (hbyte : ∀ i, i < payloadAt s.cfg → t.rxByte i = s.rxByte i) :
    rxLenField t = rxLenField s := by
  simp only [rxLenField, payloadAt, hcfg] at hbyte ⊢
  cases hl : s.cfg.lenBytes with
  | one => simp only [hbyte 4 (by simp [hl, LenBytes.toNat])]
  | two => simp only [hbyte 4 (by simp [hl, LenBytes.toNat]), hbyte 5 (by simp [hl, LenBytes.toNat])]

/-- One byte changed changes the exclusive or (R86). -/
theorem xorFold_range_ne {f g : Nat → Byte} {n k : Nat} (hk : k < n) (hne : f k ≠ g k)
    (hsame : ∀ i, i < n → i ≠ k → f i = g i) : xorFold ((List.range n).map f) ≠ xorFold ((List.range n).map g) := by
  induction n with
  | zero => omega
  | succ n ih =>
    rw [List.range_succ, List.map_append, List.map_append, List.map_singleton, List.map_singleton, xorFold_concat,
      xorFold_concat]
    by_cases hkn : k = n
    · have hbelow : (List.range n).map f = (List.range n).map g :=
        List.map_congr_left fun i hi => by
          have hi := List.mem_range.mp hi
          exact hsame i (by omega) (by omega)
      rw [hbelow, ← hkn]
      exact fun heq => hne (BitVec.xor_right_inj _ |>.mp heq)
    · rw [hsame n (by omega) (Ne.symm hkn)]
      exact fun heq => ih (by omega) (fun i hi => hsame i (by omega)) (BitVec.xor_left_inj _ |>.mp heq)

/-- A byte below the count is the one stored. -/
theorem rxByte_below {i : Nat} (hi : i < s.rx.rxcnt) : s.rxByte i = s.mem.readRxbuf i := if_pos hi

end Framer

/-- Settles O48: head, count and checksum byte are as before, the folded bytes differ in one place. -/
theorem singlePayloadByteChangeIsRejected : Obligations.SinglePayloadByteChangeIsRejected := by
  intro s t k hcfg hcnt hok hlow hhigh hne hsame
  obtain ⟨-, hmin, hsig, hlen, hsum⟩ := verdict_ok hok
  have hbyte : ∀ i, i ≠ k → i < s.rx.rxcnt → t.rxByte i = s.rxByte i := fun i hik hi => by
    rw [rxByte_below (hcnt ▸ hi), rxByte_below hi, hsame i hik]
  have h4 : 4 ≤ payloadAt s.cfg := Nat.le_add_right 4 _
  have hsig' : sigOk t = sigOk s := sigOk_congr hcnt fun i hi => hbyte i (by omega) (by omega)
  have hlen' : rxLenField t = rxLenField s := rxLenField_congr hcfg fun i hi => hbyte i (by omega) (by omega)
  rw [verdict_of_complete (by rw [hcfg, hcnt]; exact hmin) (hsig'.trans hsig) (by rw [hcfg, hcnt, hlen']; exact hlen),
    if_neg]
  obtain ⟨j, rfl⟩ := Nat.exists_eq_add_of_le hlow
  rw [hlen', hcfg, hbyte _ (by omega) (by omega), ← hsum, wirePayload, wirePayload, hcfg]
  refine xorFold_range_ne (k := j) (by omega) ?_ fun i hi hij => hbyte _ (by omega) (by omega)
  rwa [rxByte_below (by omega), rxByte_below (by omega)]

section Received

variable {s : State} {p : List Byte}

/-- The bytes the framer sees begin with the frame of a payload under the receiver's own key. -/
structure HoldsFrame (s : State) (p : List Byte) : Prop where
  short : p.length < 2 ^ (8 * s.cfg.lenBytes.toNat)
  count : (frameOf s.cfg p).length ≤ s.rx.rxcnt
  least : s.cfg.minRxBytes ≤ s.rx.rxcnt
  bytes : ∀ i, i < (frameOf s.cfg p).length → s.mem.readRxbuf i = (frameOf s.cfg p).getD i 0

theorem HoldsFrame.rxByte (h : HoldsFrame s p) {i : Nat} (hi : i < (frameOf s.cfg p).length) :
    s.rxByte i = (frameOf s.cfg p).getD i 0 := by
  rw [rxByte_below (hi.trans_le h.count), h.bytes i hi]

theorem HoldsFrame.sigOk (h : HoldsFrame s p) : sigOk s = true := by
  have hcount := h.count
  have hlength := frameOf_length s.cfg p
  have hhead : 4 ≤ payloadAt s.cfg := Nat.le_add_right 4 _
  refine (sigOk_iff s).mpr ⟨by omega, fun i hi => ?_⟩
  rw [h.rxByte (by omega), frameOf_sig _ _ hi]

/-- The length field announces the payload's length (R85, R157). -/
theorem HoldsFrame.rxLenField (h : HoldsFrame s p) : rxLenField s = p.length := by
  have hlength := frameOf_length s.cfg p
  have hreads := lenField_reads h.short
  have hfield : ∀ i, i < s.cfg.lenBytes.toNat →
      s.rxByte (4 + i) = (lenField s.cfg.lenBytes p.length).getD i 0 := fun i hi => by
    rw [h.rxByte (by simp only [payloadAt] at hlength; omega), frameOf_lenField _ _ hi]
  simp only [Machine.rxLenField]
  cases hl : s.cfg.lenBytes with
  | one =>
    rw [hl] at hfield hreads
    rw [hfield 0 (by decide)]
    simpa [lenField] using hreads
  | two =>
    rw [hl] at hfield hreads
    rw [hfield 0 (by decide), hfield 1 (by decide)]
    simpa [lenField] using hreads

/-- Payload byte `i` is encrypted, and the byte behind the payload is the checksum (R84, R86). -/
theorem HoldsFrame.payload (h : HoldsFrame s p) {i : Nat} (hi : i < p.length) :
    s.rxByte (payloadAt s.cfg + i) = ciph s.cfg (p.getD i 0) i := by
  have hlength := frameOf_length s.cfg p
  rw [h.rxByte (by omega), frameOf_payload _ _ hi]

theorem HoldsFrame.wirePayload (h : HoldsFrame s p) : wirePayload s p.length = ciphAll s.cfg p := by
  refine List.ext_getElem (by simp [Machine.wirePayload]) fun i hi hi' => ?_
  have hip : i < p.length := by simpa using hi'
  simp [Machine.wirePayload, h.payload hip, ciphAll, hip]

/-- Every check of the framer passes (R150, R156 to R159). -/
theorem HoldsFrame.verdict (h : HoldsFrame s p) : verdict s 0 = .ok := by
  have hlength := frameOf_length s.cfg p
  have hcount := h.count
  rw [verdict_of_complete h.least h.sigOk (by rw [h.rxLenField]; omega), if_pos]
  rw [h.rxLenField, h.wirePayload, h.rxByte (by omega), frameOf_checksum]

/-- The signature's first byte is not 0 (R154). -/
theorem HoldsFrame.allZero (h : HoldsFrame s p) : allZero s = false := by
  have hlength := frameOf_length s.cfg p
  have hfirst := h.bytes 0 (by omega)
  rw [frameOf_sig _ _ (by decide)] at hfirst
  refine Bool.eq_false_iff.mpr fun hzero => ?_
  obtain ⟨hpos, hall⟩ := (allZero_iff s).mp hzero
  rw [hall 0 hpos] at hfirst
  exact absurd hfirst (by decide)

/-- Decryption undoes encryption (R172). -/
theorem ciph_ciph (c : Config) (b : Byte) (i : Nat) : ciph c (ciph c b i) i = b := by
  rw [ciph, ciph, BitVec.xor_assoc, BitVec.xor_self, BitVec.xor_zero]

/-- With clean timing and no invalid symbol the result of a captured frame is `OK`, its length the payload's, and
the payload stands decrypted in `RXPAY` (R150, R160, R161). -/
theorem finalize_of_holdsFrame (hs : s.mem.wf) (h : HoldsFrame (framerView s) p)
    (hbad : (framerView s).rx.bad = false) (hclear : timingClear s) : (finalize s).res =
      { stat := .ok, cause := 0, len := p.length, nbytes := (framerView s).rx.rxcnt, minLow := windowMin s false
        minHigh := windowMin s true, done := true, ovr := s.res.ovr || s.res.done } ∧
    ∀ i, i < p.length → (finalize s).mem.readRxpay i = p.getD i 0 := by
  have hcause : fullCause (framerView s) (timingCause s (windowMin s false) (windowMin s true)) = 0 := by
    rw [(timingCause_eq_zero_iff s).mpr hclear]
    simp [fullCause, hbad, h.allZero]
  rw [finalize_eq, hcause]
  refine ⟨by
    simp only [conclude_res, h.verdict, h.rxLenField, reduceCtorEq, if_true, if_false, framerView_res], fun i hi => ?_⟩
  simp only [conclude, h.verdict, if_true, clear_mem, post_mem, h.rxLenField]
  rw [deliver_readRxpay (framerView_wf hs) hi, h.payload hi, ciph_ciph]

end Received

end Sys2Proof.Machine
end

section
/-!
PROOFS. The line code (R66, R67, R80, R81) and the transmitter over time: ticks of one level follow each other, and a
transmission is the wave of its frame (R183 to R191).
-/

namespace Sys2Proof.Machine

section LineCode

@[simp] theorem byteBits_length (b : Byte) : (byteBits b).length = 8 := by simp [byteBits]

theorem byteBits_getD (b : Byte) {j : Nat} (hj : j < 8) : (byteBits b).getD j false = b.getLsbD (7 - j) := by
  simp [byteBits, hj]

theorem bitsOf_cons (b : Byte) (bs : List Byte) : bitsOf (b :: bs) = byteBits b ++ bitsOf bs := List.flatMap_cons

@[simp] theorem bitsOf_length (bs : List Byte) : (bitsOf bs).length = 8 * bs.length := by
  induction bs with
  | nil => rfl
  | cons b bs ih => rw [bitsOf_cons, List.length_append, byteBits_length, ih, List.length_cons]; omega

/-- Bit `j` in line order is bit `7 - (j mod 8)` of byte `j / 8` (R66, R67, R181). -/
theorem bitsOf_getD (bs : List Byte) {j : Nat} (hj : j < 8 * bs.length) :
    (bitsOf bs).getD j false = (bs.getD (j / 8) 0).getLsbD (7 - j % 8) := by
  induction bs generalizing j with
  | nil => exact absurd hj (Nat.not_lt_zero j)
  | cons b bs ih =>
    rw [bitsOf_cons]
    by_cases hfirst : j < 8
    · rw [List.getD_append _ _ _ _ (by simpa using hfirst), byteBits_getD b hfirst, Nat.div_eq_of_lt hfirst,
        Nat.mod_eq_of_lt hfirst]
      rfl
    · obtain ⟨i, rfl⟩ := Nat.exists_eq_add_of_le (Nat.le_of_not_lt hfirst)
      rw [List.length_cons] at hj
      rw [List.getD_append_right _ _ _ _ (by simp), byteBits_length, Nat.add_sub_cancel_left, ih (by omega),
        Nat.add_mod_left, Nat.add_div_left _ (by decide), List.getD_cons_succ]

theorem levelsOf_cons (r : Level × Nat) (rs : List (Level × Nat)) :
    levelsOf (r :: rs) = List.replicate r.2 r.1 ++ levelsOf rs := List.flatMap_cons

/-- How long a bit lasts: one unit or two (R80). -/
def bitTicks (unit : Nat) (b : Bool) : Nat := if b then 2 * unit else unit

theorem bitRuns_cons (unit : Nat) (l : Level) (b : Bool) (bs : List Bool) :
    bitRuns unit l (b :: bs) = (l, bitTicks unit b) :: bitRuns unit (!l) bs := rfl

/-- Each bit lasts one unit, each 1 one more (R80). -/
theorem levelsOf_bitRuns_length (unit : Nat) (l : Level) (bs : List Bool) :
    (levelsOf (bitRuns unit l bs)).length = unit * (bs.length + bs.count true) := by
  induction bs generalizing l with
  | nil => rfl
  | cons b bs ih =>
    rw [bitRuns_cons, levelsOf_cons, List.length_append, List.length_replicate, ih, List.length_cons]
    cases b with
    | false => simp [bitTicks]; ring
    | true => simp [bitTicks]; ring

/-- Frame bit `j` is bit `j` of the frame in line order (R181). -/
theorem frameBit_eq (s : State) {j : Nat} (hj : j < 8 * s.frame.length) :
    s.frameBit j = (bitsOf s.frame).getD j false := (bitsOf_getD s.frame hj).symm

/-- `FLEN` is the frame's length (R181). -/
theorem frame_length (s : State) : s.frame.length = s.flen := by
  rw [State.frame, frameOf_length, State.plain, List.length_map, List.length_range]
  rfl

end LineCode

/-- From `s` the transmitter shows these levels, one a tick and busy throughout, and is then in `t`. -/
structure Emits (ls : List Level) (s t : State) : Prop where
  last : txRun ls.length s = t
  each : ∀ k, k < ls.length → (txRun k s).tx.level = ls.getD k false ∧ txBusy (txRun k s) = true

section Emitting

variable {s t u : State}

theorem txRun_add (m n : Nat) (s : State) : txRun (m + n) s = txRun n (txRun m s) := by
  induction m generalizing s with
  | zero => rw [Nat.zero_add]; rfl
  | succ m ih => rw [Nat.succ_add]; exact ih (txStep s)

theorem emits_append {ls ms : List Level} (h : Emits ls s t) (h' : Emits ms t u) : Emits (ls ++ ms) s u where
  last := by rw [List.length_append, txRun_add, h.last, h'.last]
  each k hk := by
    by_cases hfirst : k < ls.length
    · rw [List.getD_append _ _ _ _ hfirst]
      exact h.each k hfirst
    · obtain ⟨i, rfl⟩ := Nat.exists_eq_add_of_le (Nat.le_of_not_lt hfirst)
      rw [List.length_append] at hk
      rw [List.getD_append_right _ _ _ _ (by omega), Nat.add_sub_cancel_left, txRun_add, h.last]
      exact h'.each i (by omega)

/-- One busy tick. -/
theorem emits_one (hp : s.tx.phase ≠ .idle) : Emits [s.tx.level] s (txStep s) where
  last := rfl
  each k hk := by
    obtain rfl : k = 0 := by simpa using hk
    exact ⟨rfl, by simpa [txRun, txBusy] using hp⟩

/-- The state in the last tick of a level's hold time. -/
def State.holdsOne (s : State) : State := s.setTx { s.tx with hold := 1 }

/-- A level with `TXHOLD` ticks to hold is shown so long (R186). -/
theorem emits_hold (hp : s.tx.phase ≠ .idle) (hh : 1 ≤ s.tx.hold) :
    Emits (List.replicate s.tx.hold s.tx.level) s (txStep s.holdsOne) := by
  obtain ⟨n, hn⟩ := Nat.exists_eq_add_of_le' hh
  rw [hn]
  induction n generalizing s with
  | zero =>
    have hlast : s.holdsOne = s := congrArg (fun h => s.setTx { s.tx with hold := h }) hn.symm
    rw [hlast]
    exact emits_one hp
  | succ n ih =>
    have hstep := emits_one hp
    rw [txStep_of_hold hp (by omega)] at hstep
    have hrest := ih (s := s.setTx { s.tx with hold := s.tx.hold - 1 }) hp (Nat.le_sub_of_add_le (by omega))
      (by rw [setTx_tx, hn]; rfl)
    exact emits_append hstep hrest

/-- The end silence, and the transmitter idle and off after it (R189, R190). -/
theorem emits_ending (hp : s.tx.phase = .end_) (hlevel : s.tx.level = false) (hh : 1 ≤ s.tx.hold) :
    ∃ t, Emits (List.replicate s.tx.hold false) s t ∧ t.tx.phase = .idle ∧ t.tx.level = false := by
  have hhold := emits_hold (by rw [hp]; decide) hh
  have hdone : txStep s.holdsOne = _ := txStep_of_done (s := s.holdsOne) hp (Nat.le_refl 1)
  rw [hlevel] at hhold
  exact ⟨_, hhold, by rw [hdone]; rfl, by rw [hdone]; exact hlevel⟩

/-- The data bits that remain, and then the end silence (R187 to R191). -/
theorem emits_bits (hc : configOk s.cfg = true) (bs : List Bool) (hp : s.tx.phase ≠ .idle) (he : s.tx.phase ≠ .end_)
    (hh : 1 ≤ s.tx.hold) (hlen : s.tx.idx + bs.length = 8 * s.flen)
    (hbits : ∀ j, j < bs.length → s.frameBit (s.tx.idx + j) = bs.getD j false) :
    ∃ t, Emits (List.replicate s.tx.hold s.tx.level ++
        (levelsOf (bitRuns s.cfg.txUnitPeriod (!s.tx.level) bs) ++ List.replicate s.cfg.txEndPeriod false)) s t ∧
      t.tx.phase = .idle ∧ t.tx.level = false := by
  induction bs generalizing s with
  | nil =>
    have hhold := emits_hold hp hh
    rw [txStep_of_end (s := s.holdsOne) hp he (Nat.le_refl 1) hlen.ge] at hhold
    obtain ⟨t, hend, hidle⟩ := emits_ending (s := s.holdsOne.setTx
      { s.holdsOne.tx with level := false, hold := s.cfg.txEndPeriod, phase := .end_ }) rfl rfl
      (configOk_holds_pos hc).2.2
    exact ⟨t, emits_append hhold hend, hidle⟩
  | cons b bs ih =>
    rw [List.length_cons] at hlen
    have hhold := emits_hold hp hh
    have hbit : s.frameBit s.tx.idx = b := hbits 0 (by simp)
    have hsend : txStep s.holdsOne = sendBit (bitTicks s.cfg.txUnitPeriod b) s.holdsOne :=
      (txStep_of_bit (s := s.holdsOne) hp he (Nat.le_refl 1) (by show s.tx.idx < 8 * s.flen; omega)).trans
        (congrArg (fun b => sendBit (bitTicks s.cfg.txUnitPeriod b) s.holdsOne) hbit)
    rw [hsend] at hhold
    have hunit := (configOk_holds_pos hc).1
    have hticks : 1 ≤ bitTicks s.cfg.txUnitPeriod b := by unfold bitTicks; split <;> omega
    have hnext : ∀ j, j < bs.length → s.frameBit (s.tx.idx + 1 + j) = bs.getD j false := fun j hj => by
      rw [Nat.add_right_comm, Nat.add_assoc, hbits (j + 1) (by simpa using hj), List.getD_cons_succ]
    obtain ⟨t, hrest, hidle⟩ := ih (s := sendBit (bitTicks s.cfg.txUnitPeriod b) s.holdsOne) hc (nomatch ·)
      (nomatch ·) hticks (by show s.tx.idx + 1 + bs.length = 8 * s.flen; omega) hnext
    refine ⟨t, ?_, hidle⟩
    rw [bitRuns_cons, levelsOf_cons, List.append_assoc]
    exact emits_append hhold hrest

/-- A transmission is the wave of its frame and the end silence (R80, R81, R183). -/
theorem emits_transmission (hc : configOk s.cfg = true) :
    ∃ t, Emits (levelsOf (waveRuns (startPulse s.cfg) s.cfg.txUnitPeriod s.frame) ++
        List.replicate s.cfg.txEndPeriod false) (startTx s) t ∧ t.tx.phase = .idle ∧ t.tx.level = false := by
  have hlen : (bitsOf s.frame).length = 8 * s.flen := by rw [bitsOf_length, frame_length]
  have hbits : ∀ j, j < (bitsOf s.frame).length → s.frameBit (0 + j) = (bitsOf s.frame).getD j false := fun j hj => by
    rw [Nat.zero_add]
    exact frameBit_eq s (by rwa [bitsOf_length] at hj)
  rw [waveRuns, levelsOf_cons, List.append_assoc]
  exact emits_bits (s := startTx s) hc (bitsOf s.frame) (nomatch ·) (nomatch ·) (configOk_holds_pos hc).2.1
    ((Nat.zero_add _).trans hlen) hbits

end Emitting

/-- Settles O59: `emits_transmission` and the length of a wave. -/
theorem transmissionIsTheWaveOfItsFrame : Obligations.TransmissionIsTheWaveOfItsFrame := by
  intro s hc _
  obtain ⟨t, hemits, hidle, hoff⟩ := emits_transmission hc
  refine ⟨?_, hemits.each, ?_, ?_⟩
  · rw [List.length_append, List.length_replicate, waveRuns, levelsOf_cons, List.length_append, List.length_replicate,
      levelsOf_bitRuns_length, bitsOf_length, frame_length]
  · rw [hemits.last, txBusy, hidle]
    rfl
  · rw [hemits.last, hoff]

end Sys2Proof.Machine
end

section
/-!
PROOFS. The receiver over time: a held level only counts time, a change within the thresholds is accepted, and so a
wave leaves its runs in the capture window and, in `CAL` mode, its bits in the assembler (R110, R113, R125).
-/

namespace Sys2Proof.Machine

section Ticks

variable {s : State}

theorem rxFeed_append (ls ms : List Level) (s : State) : rxFeed (ls ++ ms) s = rxFeed ms (rxFeed ls s) :=
  List.foldl_append

theorem rxFeed_cons (l : Level) (ls : List Level) (s : State) : rxFeed (l :: ls) s = rxFeed ls (rxStep l s) := rfl

theorem rxFeed_singleton (l : Level) (s : State) : rxFeed [l] s = rxStep l s := rfl

/-- Up to the silence threshold the interval counter counts, it does not saturate (R6, R11, R24). -/
theorem diff_eq (hc : configOk s.cfg = true) (he : s.rx.elapsed ≤ s.cfg.rxEndPeriod) : s.diff = s.rx.elapsed + 1 := by
  simp only [configOk, Bool.and_eq_true, decide_eq_true_eq] at hc
  have hsat : s.rx.elapsed < satMax s.cfg := by rw [satMax]; omega
  rw [State.diff, satInc, if_pos hsat]

theorem flagG_of_early (he : s.diff ≤ s.cfg.rxEndPeriod) : flagG s = false :=
  Bool.eq_false_iff.mpr fun hg => Nat.not_lt.mpr he ((flagG_iff s).mp hg).2

theorem flagG_of_idle (hp : s.rx.phase = .idle) : flagG s = false :=
  Bool.eq_false_iff.mpr fun hg => ((flagG_iff s).mp hg).1 hp

/-- The tracked level once more (R114). -/
theorem rxStep_of_same (hG : flagG s = false) : rxStep s.rx.level s = passTime s := by
  simp only [rxStep, rxGate_of_not_flagG hG, if_true]
  rfl

/-- A change that is not too early (R110). -/
theorem rxStep_of_change {l : Level} (hG : flagG s = false) (hl : l ≠ s.rx.level)
    (hreject : s.cfg.rxRejectPeriod ≤ s.diff) : rxStep l s = rxTransition l s.diff s := by
  simp only [rxStep, rxGate_of_not_flagG hG, if_neg hl, if_neg (Nat.not_lt.mpr hreject)]

/-- A held level only counts time (R125). -/
theorem rxFeed_held (hc : configOk s.cfg = true) (k : Nat) (hk : s.rx.elapsed + k ≤ s.cfg.rxEndPeriod) :
    rxFeed (List.replicate k s.rx.level) s = s.setRx { s.rx with elapsed := s.rx.elapsed + k } := by
  induction k generalizing s with
  | zero => rfl
  | succ k ih =>
    have hdiff := diff_eq hc (by omega)
    have hpass : passTime s = s.setRx { s.rx with elapsed := s.rx.elapsed + 1 } := by rw [← hdiff]; rfl
    have hrest := ih (s := s.setRx { s.rx with elapsed := s.rx.elapsed + 1 }) hc
      (by simp only [setRx_rx, setRx_cfg]; omega)
    rw [List.replicate_succ, rxFeed_cons, rxStep_of_same (flagG_of_early (by omega)), hpass]
    refine hrest.trans ?_
    simp only [State.setRx, Nat.add_assoc, Nat.add_comm k 1]

end Ticks

/-- The registers that follow the line: phase, unit, tracked level, and the ticks before the present one for which it
has been held (R22 to R25). -/
def State.timed (p : RxPhase) (u : Nat) (l : Level) (e : Nat) (s : State) : State :=
  s.setRx { s.rx with phase := p, unit := u, level := l, elapsed := e }

section Timed

variable (p : RxPhase) (u : Nat) (l : Level) (e : Nat) (s : State)

@[simp] theorem timed_cfg : (s.timed p u l e).cfg = s.cfg := rfl
@[simp] theorem timed_mem : (s.timed p u l e).mem = s.mem := rfl
@[simp] theorem timed_phase : (s.timed p u l e).rx.phase = p := rfl
@[simp] theorem timed_level : (s.timed p u l e).rx.level = l := rfl
@[simp] theorem timed_elapsed : (s.timed p u l e).rx.elapsed = e := rfl
@[simp] theorem timed_bad : (s.timed p u l e).rx.bad = s.rx.bad := rfl
@[simp] theorem timed_bitcnt : (s.timed p u l e).rx.bitcnt = s.rx.bitcnt := rfl
@[simp] theorem timed_rxcnt : (s.timed p u l e).rx.rxcnt = s.rx.rxcnt := rfl
@[simp] theorem timed_skip : (s.timed p u l e).rx.skip = s.rx.skip := rfl

end Timed

/-- A list of intervals recorded one after the other (R113). -/
def recordRuns (rs : List (Level × Nat)) (s : State) : State := rs.foldl (fun t r => record r.1 r.2 t) s

/-- What the bits of accepted intervals do to the assembler: `CAL` mode pushes them, `MIN` mode waits (R119 to R121). -/
def takeBits (bs : List Bool) (s : State) : State := if s.cfg.decodeMode = .cal then pushBits bs s else s

section Commuting

variable (p : RxPhase) (u : Nat) (m : Level) (e : Nat) (s : State)

theorem record_timed (l : Level) (d : Nat) : record l d (s.timed p u m e) = (record l d s).timed p u m e := by
  rw [record, record, apply_ite (State.timed p u m e)]
  rfl

theorem pushBit_timed (b : Bool) : pushBit b (s.timed p u m e) = (pushBit b s).timed p u m e := by
  simp only [pushBit, apply_ite (State.timed p u m e)]
  rfl

theorem pushBits_timed (bs : List Bool) : pushBits bs (s.timed p u m e) = (pushBits bs s).timed p u m e :=
  List.foldl_hom (State.timed p u m e) fun t b => pushBit_timed p u m e t b

/-- The event at the window's end (R113), as an update of the window alone. -/
def State.withEvent (l : Level) (d : Nat) (s : State) : State :=
  (s.setMem (s.mem.writeCw s.rx.cwcnt ⟨s.rx.cwcnt, l, d⟩)).setRx { s.rx with cwcnt := s.rx.cwcnt + 1 }

/-- The window has overflowed (R113). -/
def State.withOverflow (s : State) : State := s.setRx { s.rx with cwovf := true }

theorem record_eq (l : Level) (d : Nat) (s : State) :
    record l d s = if s.rx.cwcnt < s.cfg.cwCap then s.withEvent l d else s.withOverflow := rfl

/-- The window and the assembler do not touch each other. -/
theorem record_pushBit (l : Level) (d : Nat) (b : Bool) (s : State) :
    record l d (pushBit b s) = pushBit b (record l d s) := by
  have hevent : pushBit b (s.withEvent l d) = (pushBit b s).withEvent l d := by
    simp only [pushBit, apply_ite (State.withEvent l d)]
    rfl
  have hoverflow : pushBit b s.withOverflow = (pushBit b s).withOverflow := by
    simp only [pushBit, apply_ite State.withOverflow]
    rfl
  rw [record_eq, record_eq, apply_ite (pushBit b), hevent, hoverflow, pushBit_cwcnt, pushBit_cfg]

theorem recordRuns_pushBit (rs : List (Level × Nat)) (b : Bool) (s : State) :
    recordRuns rs (pushBit b s) = pushBit b (recordRuns rs s) :=
  List.foldl_hom (pushBit b) fun t r => record_pushBit r.1 r.2 b t

theorem recordRuns_cfg (rs : List (Level × Nat)) (s : State) : (recordRuns rs s).cfg = s.cfg :=
  foldl_keeps (fun t (r : Level × Nat) => record r.1 r.2 t) (fun t : State => t.cfg)
    (fun t r => record_cfg r.1 r.2 t) rs s

theorem takeBits_cfg (bs : List Bool) (s : State) : (takeBits bs s).cfg = s.cfg := by
  unfold takeBits
  split
  · exact foldl_keeps _ (fun t : State => t.cfg) (fun t b => pushBit_cfg b t) bs s
  · rfl

theorem recordRuns_takeBit (rs : List (Level × Nat)) (b : Bool) (s : State) :
    recordRuns rs (takeBits [b] s) = takeBits [b] (recordRuns rs s) := by
  simp only [takeBits, recordRuns_cfg]
  split
  · exact recordRuns_pushBit rs b s
  · rfl

theorem takeBits_cons (b : Bool) (bs : List Bool) (s : State) :
    takeBits bs (takeBits [b] s) = takeBits (b :: bs) s := by
  rw [takeBits, takeBits_cfg]
  simp only [takeBits]
  split <;> rfl

theorem takeBits_timed (bs : List Bool) (p : RxPhase) (u : Nat) (m : Level) (e : Nat) (s : State) :
    takeBits bs (s.timed p u m e) = (takeBits bs s).timed p u m e := by
  unfold takeBits
  rw [timed_cfg, pushBits_timed, apply_ite (State.timed p u m e)]

end Commuting

section Runs

variable {s : State}

/-- The level of a run is held to its end (R125). -/
theorem rxFeed_timed (hc : configOk s.cfg = true) {p : RxPhase} {u k : Nat} {l : Level}
    (hk : k ≤ s.cfg.rxEndPeriod) : rxFeed (List.replicate k l) (s.timed p u l 0) = s.timed p u l k :=
  (rxFeed_held (s := s.timed p u l 0) hc k ((Nat.zero_add k).symm ▸ hk)).trans
    (congrArg (fun e => s.timed p u l e) (Nat.zero_add k))

/-- A change at the end of an interval of `e + 1` ticks is accepted with `diff = e + 1` (R110, R125). -/
theorem rxStep_timed (hc : configOk s.cfg = true) (p : RxPhase) (u : Nat) (l : Level) {e : Nat}
    (hreject : s.cfg.rxRejectPeriod ≤ e + 1) (hend : e + 1 ≤ s.cfg.rxEndPeriod) :
    rxStep (!l) (s.timed p u l e) = rxTransition (!l) (e + 1) (s.timed p u l e) := by
  have hdiff : (s.timed p u l e).diff = e + 1 := diff_eq (s := s.timed p u l e) hc (Nat.le_of_succ_le hend)
  rw [rxStep_of_change (flagG_of_early (by rw [hdiff]; exact hend)) (Bool.not_ne_self l) (by rw [hdiff]; exact hreject),
    hdiff]

/-- The start pulse from an idle receiver (R116). -/
theorem rxFeed_pulse (hc : configOk s.cfg = true) (hp : s.rx.phase = .idle) (hl : s.rx.level = false)
    (hreject : s.cfg.rxRejectPeriod ≤ s.diff) {e : Nat} (he : e ≤ s.cfg.rxEndPeriod) :
    rxFeed (List.replicate (e + 1) true) s = s.timed .start 0 true e := by
  have hfirst : rxStep true s = s.timed .start 0 true 0 := by
    rw [rxStep_of_change (flagG_of_idle hp) (by rw [hl]; decide) hreject]
    simp only [rxTransition, hp]
    rfl
  rw [List.replicate_succ, rxFeed_cons, hfirst, rxFeed_timed hc he]

/-- The first data level behind a start pulse of `e + 1` ticks (R117). -/
theorem rxFeed_calib (hc : configOk s.cfg = true) {e k : Nat} (hreject : s.cfg.rxRejectPeriod ≤ e + 1)
    (hend : e + 1 ≤ s.cfg.rxEndPeriod) (hk : k ≤ s.cfg.rxEndPeriod) :
    rxFeed (List.replicate (k + 1) false) (s.timed .start 0 true e) =
      (record true (e + 1) s).timed .data (9 * (e + 1) / 10) false k := by
  have hcalib : rxStep false (s.timed .start 0 true e) =
      (record true (e + 1) s).timed .data (9 * (e + 1) / 10) false 0 := by
    exact (rxStep_timed hc .start 0 true hreject hend).trans
      (congrArg (fun t => t.setRx { t.rx with unit := 9 * (e + 1) / 10, phase := .data })
        (record_timed .start 0 false 0 s true (e + 1)))
  rw [List.replicate_succ, rxFeed_cons, hcalib]
  exact rxFeed_timed (by rwa [record_cfg]) (by rwa [record_cfg])

/-- An interval of the count of a bit is that bit (R122). -/
theorem symbol_of_cnt {d u : Nat} {b : Bool} (h : cnt d u = if b then 2 else 1) (s : State) :
    symbol d u s = pushBit b s := by
  cases b <;> simp [symbol, h]

/-- The next level behind the interval of a data bit (R119 to R122). -/
theorem rxFeed_bit (hc : configOk s.cfg = true) {u d k : Nat} (l : Level) {b : Bool}
    (hcount : s.cfg.decodeMode = .cal → cnt (d + 1) u = if b then 2 else 1)
    (hreject : s.cfg.rxRejectPeriod ≤ d + 1) (hend : d + 1 ≤ s.cfg.rxEndPeriod) (hk : k ≤ s.cfg.rxEndPeriod) :
    rxFeed (List.replicate (k + 1) (!l)) (s.timed .data u l d) =
      (takeBits [b] (record l (d + 1) s)).timed .data u (!l) k := by
  have hbit : rxStep (!l) (s.timed .data u l d) = (takeBits [b] (record l (d + 1) s)).timed .data u (!l) 0 := by
    refine (rxStep_timed hc .data u l hreject hend).trans ((congrArg
      (fun t => if s.cfg.decodeMode = .cal then symbol (d + 1) u t else t)
      (record_timed .data u (!l) 0 s l (d + 1))).trans ?_)
    by_cases hmode : s.cfg.decodeMode = .cal
    · simp only [if_pos hmode, symbol_of_cnt (hcount hmode), pushBit_timed, takeBits, record_cfg]
      rfl
    · simp only [if_neg hmode, takeBits, record_cfg]
  rw [List.replicate_succ, rxFeed_cons, hbit]
  exact rxFeed_timed (by rwa [takeBits_cfg, record_cfg]) (by rwa [takeBits_cfg, record_cfg])

/-- The rest of the data behind the first level of bit `b`, up to a level held for `k + 1` ticks behind it: every
interval is recorded and every bit taken. -/
theorem rxFeed_bits (hc : configOk s.cfg = true) {u unit k : Nat} (hunit : 1 ≤ unit)
    (hcount : s.cfg.decodeMode = .cal → ∀ b, cnt (bitTicks unit b) u = if b then 2 else 1)
    (hreject : s.cfg.rxRejectPeriod ≤ unit) (hend : 2 * unit ≤ s.cfg.rxEndPeriod) (hk : k ≤ s.cfg.rxEndPeriod)
    (bs : List Bool) (b : Bool) (l : Level) :
    rxFeed (levelsOf (bitRuns unit (!l) bs) ++ List.replicate (k + 1) (not^[bs.length + 1] l))
        (s.timed .data u l (bitTicks unit b - 1)) =
      (takeBits (b :: bs) (recordRuns (bitRuns unit l (b :: bs)) s)).timed .data u (not^[bs.length + 1] l) k := by
  have hticks : ∀ b, bitTicks unit b - 1 + 1 = bitTicks unit b ∧ unit ≤ bitTicks unit b ∧
      bitTicks unit b ≤ 2 * unit := fun b => by unfold bitTicks; split <;> omega
  induction bs generalizing b l s with
  | nil =>
    obtain ⟨hsucc, hlow, hhigh⟩ := hticks b
    have hone := rxFeed_bit hc (u := u) (k := k) l (b := b) (by rw [hsucc]; exact fun h => hcount h b)
      (by omega) (by omega) hk
    rw [hsucc] at hone
    exact hone
  | cons c cs ih =>
    obtain ⟨hsucc, hlow, hhigh⟩ := hticks b
    obtain ⟨hsucc', -, hhigh'⟩ := hticks c
    have hone := rxFeed_bit hc (u := u) (k := bitTicks unit c - 1) l (b := b)
      (by rw [hsucc]; exact fun h => hcount h b) (by omega) (by omega) (by omega)
    rw [hsucc, hsucc'] at hone
    have hcfg : (takeBits [b] (record l (bitTicks unit b) s)).cfg = s.cfg := by rw [takeBits_cfg, record_cfg]
    have hrest := ih (s := takeBits [b] (record l (bitTicks unit b) s)) (by rwa [hcfg]) (by rwa [hcfg])
      (by rwa [hcfg]) (by rwa [hcfg]) (by rwa [hcfg]) c (!l)
    rw [bitRuns_cons, levelsOf_cons, List.append_assoc, rxFeed_append, hone, List.length_cons,
      Function.iterate_succ_apply, hrest, recordRuns_takeBit, takeBits_cons]
    rfl

/-- A wave leaves its runs in the window and its bits taken, the line off behind it (R80, R81, R116 to R121). -/
theorem rxFeed_wave (hc : configOk s.cfg = true) (hp : s.rx.phase = .idle) (hl : s.rx.level = false)
    (hfirst : s.cfg.rxRejectPeriod ≤ s.diff) {pulse unit k : Nat} {bytes : List Byte} (hbytes : bytes ≠ [])
    (hpos : 1 ≤ pulse) (hpreject : s.cfg.rxRejectPeriod ≤ pulse) (hpend : pulse ≤ s.cfg.rxEndPeriod)
    (hunit : 1 ≤ unit) (hreject : s.cfg.rxRejectPeriod ≤ unit) (hend : 2 * unit ≤ s.cfg.rxEndPeriod)
    (hcount : s.cfg.decodeMode = .cal → ∀ b, cnt (bitTicks unit b) (9 * pulse / 10) = if b then 2 else 1)
    (hk : k ≤ s.cfg.rxEndPeriod) :
    rxFeed (levelsOf (waveRuns pulse unit bytes) ++ List.replicate (k + 1) false) s =
      (takeBits (bitsOf bytes) (recordRuns (waveRuns pulse unit bytes) s)).timed .data (9 * pulse / 10) false k := by
  have hlength := bitsOf_length bytes
  have hmany := List.length_pos_iff.mpr hbytes
  have heven : not^[(bitsOf bytes).length] false = false := by
    rw [Bool.involutive_not.iterate_even ⟨4 * bytes.length, by omega⟩]
    rfl
  obtain ⟨e, rfl⟩ := Nat.exists_eq_add_of_le' hpos
  obtain ⟨b, bs, hbits⟩ : ∃ b bs, bitsOf bytes = b :: bs :=
    List.exists_cons_of_length_pos (by omega)
  obtain ⟨n, hn⟩ : ∃ n, bitTicks unit b = n + 1 := Nat.exists_eq_add_of_le' (by unfold bitTicks; split <;> omega)
  have hle : n ≤ s.cfg.rxEndPeriod := by
    have : bitTicks unit b ≤ 2 * unit := by unfold bitTicks; split <;> omega
    omega
  rw [hbits] at heven
  have hrest := rxFeed_bits (s := record true (e + 1) s) (k := k) (u := 9 * (e + 1) / 10) (by rwa [record_cfg]) hunit
    (by rwa [record_cfg]) (by rwa [record_cfg]) (by rwa [record_cfg]) (by rwa [record_cfg]) bs b false
  rw [List.length_cons] at heven
  rw [hn, Nat.add_sub_cancel, heven] at hrest
  rw [waveRuns, hbits, levelsOf_cons, bitRuns_cons, levelsOf_cons, List.append_assoc, List.append_assoc, rxFeed_append,
    rxFeed_append, rxFeed_pulse hc hp hl hfirst (by omega), hn, rxFeed_calib hc hpreject hpend hle, hrest, ← hn,
    ← bitRuns_cons]
  rfl

/-- The first tick of the silence beyond `RX_END_PERIOD` ends the message (R111, R125). -/
theorem rxStep_silence (hc : configOk s.cfg = true) (hp : s.rx.phase ≠ .idle) (he : s.rx.elapsed = s.cfg.rxEndPeriod) :
    (rxStep s.rx.level s).res = (finalize s).res ∧ (rxStep s.rx.level s).mem = (finalize s).mem ∧
      (rxStep s.rx.level s).rx.phase = .idle := by
  have hG : flagG s = true := (flagG_iff s).mpr ⟨hp, by rw [diff_eq hc he.le]; omega⟩
  have hlevel : s.rx.level = (rxGate s).rx.level := by rw [rxGate_of_flagG hG]; simp
  simp only [rxStep, if_pos hlevel]
  simp only [rxGate_of_flagG hG, setRx_res, setRx_mem, setRx_rx, and_self]

end Runs

end Sys2Proof.Machine
end

section
/-!
PROOFS. The wave of a frame, received (R261 to R264): its window has both minima at the unit, the framer sees the frame
in either decode mode, and the silence behind it posts the payload.
-/

namespace Sys2Proof.Machine

section Window

variable {s t : State}

/-- A fold that never grows ends below what one of its rounds makes of anything. -/
theorem foldl_le_of_mem {α : Type} {f : Nat → α → Nat} (hle : ∀ m a, f m a ≤ m) {a : α} {b : Nat} (hb : ∀ m, f m a ≤ b)
    {as : List α} (ha : a ∈ as) (m : Nat) : as.foldl f m ≤ b := by
  induction as generalizing m with
  | nil => cases ha
  | cons c cs ih =>
    rw [List.foldl_cons]
    rcases List.mem_cons.mp ha with rfl | ha
    · exact foldl_preserves f (· ≤ b) (fun m a hm => (hle m a).trans hm) cs _ (hb m)
    · exact ih ha _

/-- A minimum is at most every eligible interval of its level (R151). -/
theorem windowMin_le_event {k : Nat} {l : Level} (hlow : 2 ≤ k) (hhigh : k + 3 ≤ s.rx.cwcnt)
    (hl : (s.mem.readCw k).level = l) : windowMin s l ≤ (s.mem.readCw k).dur := by
  have hevent : s.cwEvent k = s.mem.readCw k := if_pos (by omega)
  refine foldl_le_of_mem (fun m j => ?_) (fun m => ?_) (List.mem_range.mpr (show k < s.rx.cwcnt by omega)) _
  · split
    · exact Nat.min_le_left _ _
    · exact Nat.le_refl _
  · rw [if_pos (by simp [eligible, hlow, hhigh, hevent, hl]), hevent]
    exact Nat.min_le_right _ _

/-- What no eligible interval of a level is shorter than, nor `RX_END_PERIOD`, its minimum is not shorter than
(R151). -/
theorem le_windowMin {m : Nat} {l : Level} (hend : m ≤ s.cfg.rxEndPeriod)
    (hevent : ∀ k, 2 ≤ k → k + 3 ≤ s.rx.cwcnt → (s.mem.readCw k).level = l → m ≤ (s.mem.readCw k).dur) :
    m ≤ windowMin s l := by
  refine foldl_preserves _ (fun n : Nat => m ≤ n) (fun n k hn => ?_) _ _ hend
  split
  · next hpick =>
    simp only [eligible, Bool.and_eq_true, decide_eq_true_eq, beq_iff_eq] at hpick
    obtain ⟨⟨hlow, hhigh⟩, hl⟩ := hpick
    have hstored : s.cwEvent k = s.mem.readCw k := if_pos (by omega)
    rw [hstored] at hl ⊢
    exact Nat.le_min.mpr ⟨hn, hevent k hlow hhigh hl⟩
  · exact hn

/-- Events of count 1 and 2 are decoded as one bit each, a count of 2 being a 1 (R122, R153). -/
theorem winDecode_of_valid {lo hi : Nat} (bit : Nat → Bool)
    (h : ∀ k, k < s.rx.cwcnt → cnt (s.mem.readCw k).dur (if (s.mem.readCw k).level then hi else lo) =
      if bit k then 2 else 1) : winDecode lo hi s = pushBits ((List.range s.rx.cwcnt).map bit) s := by
  rw [pushBits, List.foldl_map]
  refine List.foldl_ext _ _ _ fun t k hk => ?_
  have hk : k < s.rx.cwcnt := List.mem_range.mp hk
  have hstored : s.cwEvent k = s.mem.readCw k := if_pos hk
  rw [hstored, symbol_of_cnt (h k hk)]

/-- The capture window holds exactly these intervals (R60, R113). -/
structure HoldsRuns (rs : List (Level × Nat)) (s : State) : Prop where
  count : s.rx.cwcnt = rs.length
  fits : s.rx.cwovf = false
  event : ∀ k, k < rs.length → s.mem.readCw k = ⟨k, (rs.getD k (false, 0)).1, (rs.getD k (false, 0)).2⟩

theorem holdsRuns_of_same_window {rs : List (Level × Nat)} (h : HoldsRuns rs s) (hcnt : t.rx.cwcnt = s.rx.cwcnt)
    (hovf : t.rx.cwovf = s.rx.cwovf) (hcw : t.mem.cw = s.mem.cw) : HoldsRuns rs t :=
  ⟨hcnt.trans h.count, hovf.trans h.fits, fun k hk => by rw [← h.event k hk, Memory.readCw, hcw]; rfl⟩

theorem holdsRuns_timed {rs : List (Level × Nat)} (h : HoldsRuns rs s) (p : RxPhase) (u : Nat) (l : Level) (e : Nat) :
    HoldsRuns rs (s.timed p u l e) := holdsRuns_of_same_window h rfl rfl rfl

/-- One interval more, with room for it (R113). -/
theorem holdsRuns_record {rs : List (Level × Nat)} (hs : s.mem.wf) (h : HoldsRuns rs s)
    (hroom : rs.length < s.cfg.cwCap) (r : Level × Nat) : HoldsRuns (rs ++ [r]) (record r.1 r.2 s) := by
  rw [record, if_pos (by rw [h.count]; exact hroom)]
  refine ⟨by simp [h.count], h.fits, fun k hk => ?_⟩
  rw [setRx_mem, setMem_mem, h.count]
  rcases Nat.lt_succ_iff_lt_or_eq.mp (by simpa using hk) with hlt | rfl
  · rw [readCw_writeCw_other _ _ hlt.ne, h.event k hlt, List.getD_append _ _ _ _ hlt]
  · rw [readCw_writeCw _ _ hs, List.getD_append_right _ _ _ _ (Nat.le_refl _)]
    simp

theorem recordRuns_wf (rs : List (Level × Nat)) (hs : s.mem.wf) : (recordRuns rs s).mem.wf :=
  foldl_preserves _ (fun t : State => t.mem.wf) (fun _ _ ht => record_wf _ _ ht) rs s hs

/-- Intervals recorded with room for them stand behind those already there. -/
theorem holdsRuns_recordRuns {rs : List (Level × Nat)} (hs : s.mem.wf) (h : HoldsRuns rs s) (qs : List (Level × Nat))
    (hroom : rs.length + qs.length ≤ s.cfg.cwCap) : HoldsRuns (rs ++ qs) (recordRuns qs s) := by
  induction qs generalizing rs s with
  | nil => rw [List.append_nil]; exact h
  | cons q qs ih =>
    rw [List.length_cons] at hroom
    have hnext := ih (record_wf q.1 q.2 hs) (holdsRuns_record hs h (by omega) q)
      (by rw [List.length_append, List.length_singleton, record_cfg]; omega)
    rw [List.append_assoc] at hnext
    exact hnext

/-- Recording leaves the assembler alone. -/
theorem recordRuns_noBitPushed (rs : List (Level × Nat)) (s : State) : NoBitPushed s (recordRuns rs s) := by
  refine foldl_preserves _ (NoBitPushed s) (fun t r ht => ?_) rs s ⟨rfl, rfl, rfl, rfl, fun _ => rfl⟩
  obtain ⟨hskip, hshreg, hbitcnt, hrxcnt, hrxbuf⟩ := ht
  constructor <;> simpa [Memory.readRxbuf]

theorem recordRuns_bad (rs : List (Level × Nat)) (s : State) : (recordRuns rs s).rx.bad = s.rx.bad :=
  foldl_keeps (fun t (r : Level × Nat) => record r.1 r.2 t) (fun t : State => t.rx.bad)
    (fun t r => record_bad r.1 r.2 t) rs s

end Window

section FrameWave

variable {s : State} {pulse unit : Nat}

theorem bitRuns_length (unit : Nat) (l : Level) (bs : List Bool) : (bitRuns unit l bs).length = bs.length := by
  induction bs generalizing l with
  | nil => rfl
  | cons b bs ih => rw [bitRuns_cons, List.length_cons, ih, List.length_cons]

/-- Run `k` of the data has the level and length of bit `k` (R80, R81). -/
theorem bitRuns_getD (unit : Nat) (l : Level) (bs : List Bool) {k : Nat} (hk : k < bs.length) :
    (bitRuns unit l bs).getD k (false, 0) = (not^[k] l, bitTicks unit (bs.getD k false)) := by
  induction bs generalizing l k with
  | nil => exact absurd hk (Nat.not_lt_zero k)
  | cons b bs ih =>
    cases k with
    | zero => rfl
    | succ k =>
      rw [bitRuns_cons, List.getD_cons_succ, ih _ (by simpa using hk), Function.iterate_succ_apply, List.getD_cons_succ]

theorem waveRuns_length (pulse unit : Nat) (bytes : List Byte) :
    (waveRuns pulse unit bytes).length = 8 * bytes.length + 1 := by
  rw [waveRuns, List.length_cons, bitRuns_length, bitsOf_length]

/-- Event 0 of a recorded wave is its start pulse (R262). -/
theorem HoldsRuns.startPulse {bytes : List Byte} (h : HoldsRuns (waveRuns pulse unit bytes) s) :
    s.mem.readCw 0 = ⟨0, true, pulse⟩ := h.event 0 (Nat.succ_pos _)

/-- Event `k + 1` of a recorded wave is its bit `k` (R80, R81). -/
theorem HoldsRuns.bit {bytes : List Byte} (h : HoldsRuns (waveRuns pulse unit bytes) s) {k : Nat}
    (hk : k < 8 * bytes.length) :
    s.mem.readCw (k + 1) = ⟨k + 1, not^[k] false, bitTicks unit ((bitsOf bytes).getD k false)⟩ := by
  rw [h.event (k + 1) (by rw [waveRuns_length]; omega), waveRuns, List.getD_cons_succ,
    bitRuns_getD _ _ _ (by rwa [bitsOf_length])]

/-- A frame's first bits are those of the signature's first byte (R84). -/
theorem frameOf_firstBits (c : Config) (p : List Byte) {k : Nat} (hk : k < 8) :
    (bitsOf (frameOf c p)).getD k false = (0x63#8).getLsbD (7 - k) := by
  have hlength := frameOf_length c p
  rw [bitsOf_getD _ (by omega), Nat.div_eq_of_lt hk, Nat.mod_eq_of_lt hk, frameOf_sig c p (by decide)]
  rfl

/-- In the window of a frame's wave both minima are the unit: the signature has a 0 bit at either level among the
eligible events, and no bit is shorter (R151, R262). -/
theorem windowMin_of_frame {c : Config} {p : List Byte} (h : HoldsRuns (waveRuns pulse unit (frameOf c p)) s)
    (hend : unit ≤ s.cfg.rxEndPeriod) (l : Level) : windowMin s l = unit := by
  have hlength := frameOf_length c p
  have hhead : 5 ≤ payloadAt c := by cases hl : c.lenBytes <;> simp [payloadAt, hl, LenBytes.toNat]
  have hcount := h.count
  rw [waveRuns_length] at hcount
  have hzero : ∀ k, k < 8 → (0x63#8).getLsbD (7 - k) = false → s.mem.readCw (k + 1) = ⟨k + 1, not^[k] false, unit⟩ :=
    fun k hk hbit => by rw [h.bit (by omega), frameOf_firstBits _ _ hk, hbit]; rfl
  refine Nat.le_antisymm ?_ (le_windowMin hend fun k hlow hhigh _ => ?_)
  · cases l with
    | false =>
      have hevent := hzero 4 (by decide) (by decide)
      exact (windowMin_le_event (k := 5) (by decide) (by omega) (by rw [hevent]; rfl)).trans (by rw [hevent])
    | true =>
      have hevent := hzero 3 (by decide) (by decide)
      exact (windowMin_le_event (k := 4) (by decide) (by omega) (by rw [hevent]; rfl)).trans (by rw [hevent])
  · obtain ⟨j, rfl⟩ := Nat.exists_eq_add_of_le' (show 1 ≤ k by omega)
    rw [h.bit (by omega)]
    simp only [bitTicks]
    split <;> omega

/-- So its timing causes are clear (R152, R264). -/
theorem timingClear_of_frame {c : Config} {p : List Byte} (h : HoldsRuns (waveRuns pulse unit (frameOf c p)) s)
    (hreject : s.cfg.rxRejectPeriod ≤ unit) (hend : unit < s.cfg.rxEndPeriod) : timingClear s := by
  have hmin := windowMin_of_frame h hend.le
  exact ⟨by rwa [hmin], by rwa [hmin], by rwa [hmin], by rwa [hmin], h.fits⟩

section PushBits

variable (bs : List Bool) (s : State)

theorem pushBits_cfg : (pushBits bs s).cfg = s.cfg :=
  foldl_keeps _ (fun t : State => t.cfg) (fun t b => pushBit_cfg b t) bs s

theorem pushBits_bad : (pushBits bs s).rx.bad = s.rx.bad :=
  foldl_keeps _ (fun t : State => t.rx.bad) (fun t b => pushBit_bad b t) bs s

theorem pushBits_cwcnt : (pushBits bs s).rx.cwcnt = s.rx.cwcnt :=
  foldl_keeps _ (fun t : State => t.rx.cwcnt) (fun t b => pushBit_cwcnt b t) bs s

theorem pushBits_cwovf : (pushBits bs s).rx.cwovf = s.rx.cwovf :=
  foldl_keeps _ (fun t : State => t.rx.cwovf) (fun t b => pushBit_cwovf b t) bs s

theorem pushBits_mem_cw : (pushBits bs s).mem.cw = s.mem.cw :=
  foldl_keeps _ (fun t : State => t.mem.cw) (fun t b => pushBit_mem_cw b t) bs s

theorem pushBits_wf {s : State} (h : s.mem.wf) : (pushBits bs s).mem.wf :=
  foldl_preserves _ (fun t : State => t.mem.wf) (fun _ b ht => pushBit_wf b ht) bs s h

theorem takeBits_wf {s : State} (h : s.mem.wf) : (takeBits bs s).mem.wf := by
  unfold takeBits
  split
  · exact pushBits_wf bs h
  · exact h

/-- Taking bits leaves the window alone. -/
theorem holdsRuns_takeBits {s : State} {rs : List (Level × Nat)} (h : HoldsRuns rs s) :
    HoldsRuns rs (takeBits bs s) := by
  unfold takeBits
  split
  · exact holdsRuns_of_same_window h (pushBits_cwcnt bs s) (pushBits_cwovf bs s) (pushBits_mem_cw bs s)
  · exact h

end PushBits

/-- The bits of a frame, from a clean assembler, are the frame (R140, R180). -/
theorem holdsFrame_of_pushBits {p : List Byte} (hs : s.mem.wf) (hskip : s.rx.skip = 0) (hbitcnt : s.rx.bitcnt = 0)
    (hempty : s.rx.rxcnt = 0) (hshort : p.length < 2 ^ (8 * s.cfg.lenBytes.toNat))
    (hroom : (frameOf s.cfg p).length ≤ s.cfg.rxbufCap) (hleast : s.cfg.minRxBytes ≤ (frameOf s.cfg p).length) :
    HoldsFrame (pushBits (bitsOf (frameOf s.cfg p)) s) p ∧
      (pushBits (bitsOf (frameOf s.cfg p)) s).rx.rxcnt = (frameOf s.cfg p).length := by
  obtain ⟨hcount, -, -, hbytes⟩ := pushBits_bitsOf (frameOf s.cfg p) hs hskip hbitcnt (by omega)
  rw [hempty, Nat.zero_add] at hcount
  simp only [hempty, Nat.zero_add] at hbytes
  have hcfg := pushBits_cfg (bitsOf (frameOf s.cfg p)) s
  exact ⟨⟨by rwa [hcfg], by rw [hcfg, hcount], by rwa [hcfg, hcount], by rwa [hcfg]⟩, hcount⟩

/-- The silence behind a message with clean timing, in which the framer sees a frame, delivers its payload (R111, R150,
R160, R161). -/
theorem silence_delivers {p : List Byte} (hc : configOk s.cfg = true) (hs : s.mem.wf) (hp : s.rx.phase ≠ .idle)
    (he : s.rx.elapsed = s.cfg.rxEndPeriod) (h : HoldsFrame (framerView s) p) (hbad : (framerView s).rx.bad = false)
    (hclear : timingClear s) :
    (rxStep s.rx.level s).res.stat = .ok ∧ (rxStep s.rx.level s).res.len = p.length ∧
      (rxStep s.rx.level s).res.nbytes = (framerView s).rx.rxcnt ∧
      (rxStep s.rx.level s).res.minLow = windowMin s false ∧ (rxStep s.rx.level s).res.minHigh = windowMin s true ∧
      (rxStep s.rx.level s).res.done = true ∧ (rxStep s.rx.level s).rx.phase = .idle ∧
      ∀ a : BitVec 16, rdData (rxStep s.rx.level s) a = p.getD a.toNat 0 := by
  obtain ⟨hres, hmem, hidle⟩ := rxStep_silence hc hp he
  obtain ⟨hposted, hpayload⟩ := finalize_of_holdsFrame hs h hbad hclear
  have hlen : (rxStep s.rx.level s).res.len = p.length := by rw [hres, hposted]
  simp only [hres, hposted, hidle, true_and]
  intro a
  by_cases ha : a.toNat < p.length
  · rw [rdData_below (by rwa [hlen]), hmem, hpayload _ ha]
  · rw [rdData_beyond (by omega), List.getD_eq_default _ _ (by omega)]

end FrameWave

/-- What both decode modes ask of the wave of a payload's frame: an idle receiver at level 0, room for the frame and
its events, and a start pulse and a unit within the thresholds (R264). -/
structure Receivable (s : State) (p : List Byte) (pulse unit : Nat) : Prop where
  config : configOk s.cfg = true
  wf : s.mem.wf
  message : MessageOk s
  idle : s.rx.phase = .idle
  off : s.rx.level = false
  rested : s.cfg.rxRejectPeriod ≤ s.diff
  short : p.length < 2 ^ (8 * s.cfg.lenBytes.toNat)
  room : (frameOf s.cfg p).length ≤ s.cfg.rxbufCap
  window : 8 * (frameOf s.cfg p).length + 1 ≤ s.cfg.cwCap
  least : s.cfg.minRxBytes ≤ (frameOf s.cfg p).length
  unitPos : 1 ≤ unit
  unitReject : s.cfg.rxRejectPeriod ≤ unit
  unitEnd : 2 * unit ≤ s.cfg.rxEndPeriod
  pulsePos : 1 ≤ pulse
  pulseReject : s.cfg.rxRejectPeriod ≤ pulse
  pulseEnd : pulse ≤ s.cfg.rxEndPeriod

/-- The runs of the frame's wave recorded, the line off for `RX_END_PERIOD + 1` ticks behind it. -/
def State.waveRecorded (p : List Byte) (pulse unit : Nat) (s : State) : State :=
  (recordRuns (waveRuns pulse unit (frameOf s.cfg p)) s).timed .data (9 * pulse / 10) false s.cfg.rxEndPeriod

section Reception

variable {s : State} {p : List Byte} {pulse unit : Nat}

/-- What recording the wave leaves: the runs in the window, everything the framer reads clean. -/
theorem Receivable.recorded (h : Receivable s p pulse unit) :
    (s.waveRecorded p pulse unit).cfg = s.cfg ∧ (s.waveRecorded p pulse unit).mem.wf ∧
      HoldsRuns (waveRuns pulse unit (frameOf s.cfg p)) (s.waveRecorded p pulse unit) ∧
      (s.waveRecorded p pulse unit).rx.skip = s.cfg.rxStartBits ∧ (s.waveRecorded p pulse unit).rx.bitcnt = 0 ∧
      (s.waveRecorded p pulse unit).rx.rxcnt = 0 ∧ (s.waveRecorded p pulse unit).rx.bad = false := by
  obtain ⟨hcnt, hrxcnt, -, hbitcnt, hskip, hbad, hovf⟩ := h.message.clean (by rw [h.idle]; decide)
  have hempty : HoldsRuns [] s := ⟨hcnt, hovf, fun k hk => absurd hk (Nat.not_lt_zero k)⟩
  have hruns := holdsRuns_recordRuns h.wf hempty (waveRuns pulse unit (frameOf s.cfg p))
    (by rw [waveRuns_length, List.length_nil, Nat.zero_add]; exact h.window)
  have hassembler := recordRuns_noBitPushed (waveRuns pulse unit (frameOf s.cfg p)) s
  rw [List.nil_append] at hruns
  unfold State.waveRecorded
  rw [timed_cfg, timed_mem, timed_skip, timed_bitcnt, timed_rxcnt, timed_bad, recordRuns_cfg, recordRuns_bad,
    hassembler.skip, hassembler.bitcnt, hassembler.rxcnt]
  exact ⟨rfl, recordRuns_wf _ h.wf, holdsRuns_timed hruns .., hskip, hbitcnt, hrxcnt, hbad⟩

/-- The wave and the silence up to the gate leave `waveRecorded`, in `CAL` mode with the bits pushed. -/
theorem Receivable.rxFeed_eq (h : Receivable s p pulse unit)
    (hcount : s.cfg.decodeMode = .cal → ∀ b, cnt (bitTicks unit b) (9 * pulse / 10) = if b then 2 else 1) :
    rxFeed (levelsOf (waveRuns pulse unit (frameOf s.cfg p)) ++ List.replicate (s.cfg.rxEndPeriod + 2) false) s =
      rxStep false (takeBits (bitsOf (frameOf s.cfg p)) (s.waveRecorded p pulse unit)) := by
  have hbytes : frameOf s.cfg p ≠ [] := List.length_pos_iff.mp (by rw [frameOf_length]; omega)
  have hwave := rxFeed_wave h.config h.idle h.off h.rested hbytes h.pulsePos h.pulseReject h.pulseEnd h.unitPos
    h.unitReject h.unitEnd hcount (Nat.le_refl _)
  rw [List.replicate_succ', ← List.append_assoc, rxFeed_append, hwave, rxFeed_singleton, State.waveRecorded,
    takeBits_timed]

/-- When the silence ends the message the runs stand in the window and the line has been off for so long. -/
theorem Receivable.taken (h : Receivable s p pulse unit) (bs : List Bool) :
    (takeBits bs (s.waveRecorded p pulse unit)).cfg = s.cfg ∧ (takeBits bs (s.waveRecorded p pulse unit)).mem.wf ∧
      HoldsRuns (waveRuns pulse unit (frameOf s.cfg p)) (takeBits bs (s.waveRecorded p pulse unit)) ∧
      (takeBits bs (s.waveRecorded p pulse unit)).rx.phase ≠ .idle ∧
      (takeBits bs (s.waveRecorded p pulse unit)).rx.level = false ∧
      (takeBits bs (s.waveRecorded p pulse unit)).rx.elapsed = s.cfg.rxEndPeriod := by
  obtain ⟨hcfg, hwf, hruns, -⟩ := h.recorded
  refine ⟨by rw [takeBits_cfg, hcfg], takeBits_wf bs hwf, holdsRuns_takeBits bs hruns, ?_⟩
  rw [State.waveRecorded, takeBits_timed]
  exact ⟨by rw [timed_phase]; decide, timed_level .., timed_elapsed ..⟩

/-- If the framer then sees the frame's bits pushed into a clean assembler, the frame is delivered. -/
theorem Receivable.delivered (h : Receivable s p pulse unit)
    (hcount : s.cfg.decodeMode = .cal → ∀ b, cnt (bitTicks unit b) (9 * pulse / 10) = if b then 2 else 1) {f : State}
    (hview : framerView (takeBits (bitsOf (frameOf s.cfg p)) (s.waveRecorded p pulse unit)) =
      pushBits (bitsOf (frameOf s.cfg p)) f)
    (hcfg : f.cfg = s.cfg) (hwf : f.mem.wf) (hskip : f.rx.skip = 0) (hbitcnt : f.rx.bitcnt = 0)
    (hrxcnt : f.rx.rxcnt = 0) (hbad : f.rx.bad = false) :
    let t := rxFeed (levelsOf (waveRuns pulse unit (frameOf s.cfg p)) ++
        List.replicate (s.cfg.rxEndPeriod + 2) false) s
    t.res.stat = .ok ∧ t.res.len = p.length ∧ t.res.nbytes = (frameOf s.cfg p).length ∧ t.res.minLow = unit ∧
      t.res.minHigh = unit ∧ t.res.done = true ∧ t.rx.phase = .idle ∧
      ∀ a : BitVec 16, rdData t a = p.getD a.toNat 0 := by
  dsimp only
  rw [h.rxFeed_eq hcount]
  obtain ⟨hcfg', hwf', hruns, hphase, hlevel, helapsed⟩ := h.taken (bitsOf (frameOf s.cfg p))
  have hframe := holdsFrame_of_pushBits (s := f) (p := p) hwf hskip hbitcnt hrxcnt
  rw [hcfg] at hframe
  obtain ⟨hholds, hbytes⟩ := hframe h.short h.room h.least
  rw [← hview] at hholds hbytes
  have hunit := h.unitPos
  have hend := h.unitEnd
  have hmin := windowMin_of_frame hruns (by rw [hcfg']; omega)
  have hclear := timingClear_of_frame hruns (by rw [hcfg']; exact h.unitReject) (by rw [hcfg']; omega)
  have hpost := silence_delivers (by rw [hcfg']; exact h.config) hwf' hphase (by rw [helapsed, hcfg']) hholds
    (by rw [hview, pushBits_bad, hbad]) hclear
  rw [hlevel, hbytes, hmin, hmin] at hpost
  exact hpost

end Reception

/-- A unit within the tolerance of rule R261 is counted as one, two units as two (R112, R117). -/
theorem cnt_bitTicks {unit u : Nat} (hlow : 4 * unit < 5 * u) (hhigh : 3 * u ≤ 4 * unit) (b : Bool) :
    cnt (bitTicks unit b) u = if b then 2 else 1 := by
  cases b with
  | false => simp only [cnt, bitTicks]; split_ifs <;> omega
  | true => simp only [cnt, bitTicks]; split_ifs <;> omega

/-- Settles O57: the assembler holds the frame when the silence ends the message. -/
theorem waveOfAFrameIsReceived : Obligations.WaveOfAFrameIsReceived := by
  intro s p pulse unit hc hs hm hmode hstart hidle hoff hrested hshort hroom hwindow hleast hunit hureject huend hpos
    hpreject hpend hlow hhigh
  have h : Receivable s p pulse unit := ⟨hc, hs, hm, hidle, hoff, hrested, hshort, hroom, hwindow, hleast, hunit,
    hureject, huend, hpos, hpreject, hpend⟩
  obtain ⟨hcfg, hwf, -, hskip, hbitcnt, hrxcnt, hbad⟩ := h.recorded
  refine h.delivered (fun _ => cnt_bitTicks hlow hhigh) ?_ hcfg hwf (hskip.trans hstart) hbitcnt hrxcnt hbad
  rw [framerView_cal (by rw [takeBits_cfg, hcfg, hmode]), takeBits, if_pos (by rw [hcfg, hmode])]

/-- Against minima at the unit a bit is counted as itself (R112, R153). -/
theorem cnt_bitTicks_self {unit : Nat} (hunit : 1 ≤ unit) (b : Bool) :
    cnt (bitTicks unit b) unit = if b then 2 else 1 := cnt_bitTicks (by omega) (by omega) b

/-- A start pulse within the bounds of rule R262 is counted as one unit or two. -/
theorem cnt_startPulse {pulse unit : Nat} (hlow : unit ≤ 2 * pulse) (hhigh : 2 * pulse < 5 * unit) :
    cnt pulse unit = if decide (3 * unit ≤ 2 * pulse) then 2 else 1 := by
  simp only [cnt, decide_eq_true_eq]
  split_ifs <;> omega

/-- In `MIN` mode the window of a frame's wave is decoded as the start bit and the frame's bits (R153, R262). -/
theorem winDecode_of_frame {s : State} {bytes : List Byte} {pulse unit : Nat}
    (h : HoldsRuns (waveRuns pulse unit bytes) s) (hunit : 1 ≤ unit) (hlow : unit ≤ 2 * pulse)
    (hhigh : 2 * pulse < 5 * unit) :
    winDecode unit unit s = pushBits (bitsOf bytes) (pushBit (decide (3 * unit ≤ 2 * pulse)) s) := by
  have hcount := h.count
  rw [waveRuns_length] at hcount
  have hbits : (List.range (8 * bytes.length)).map (fun k => (bitsOf bytes).getD k false) = bitsOf bytes :=
    List.ext_getElem (by simp) fun k _ hk => by
      rw [List.getElem_map, List.getElem_range, List.getD_eq_getElem _ _ hk]
  rw [winDecode_of_valid (fun k => (decide (3 * unit ≤ 2 * pulse) :: bitsOf bytes).getD k false), hcount,
    List.range_succ_eq_map, List.map_cons, List.map_map]
  · simp only [Function.comp_def, Nat.succ_eq_add_one, List.getD_cons_succ, hbits]
    rfl
  · intro k hk
    rw [ite_self]
    cases k with
    | zero => rw [h.startPulse]; exact cnt_startPulse hlow hhigh
    | succ k => rw [h.bit (by omega)]; exact cnt_bitTicks_self hunit _

/-- The one start bit is discarded (R140, R262). -/
theorem pushBit_startBit {s : State} (hskip : s.rx.skip = 1) (b : Bool) :
    pushBit b s = s.setRx { s.rx with skip := 0 } := by
  simp [pushBit, hskip]

/-- Settles O58: the framer's view is the window decoded, without the start bit. -/
theorem waveOfAFrameIsReceivedInMinMode : Obligations.WaveOfAFrameIsReceivedInMinMode := by
  intro s p pulse unit hc hs hm hmode hstart hidle hoff hrested hshort hroom hwindow hleast hunit hureject huend
    hpreject hpend hlow hhigh
  have h : Receivable s p pulse unit := ⟨hc, hs, hm, hidle, hoff, hrested, hshort, hroom, hwindow, hleast, hunit,
    hureject, huend, by omega, hpreject, hpend⟩
  obtain ⟨hcfg, hwf, hruns, hskip, hbitcnt, hrxcnt, hbad⟩ := h.recorded
  have hdiscard := pushBit_startBit (hskip.trans hstart) (decide (3 * unit ≤ 2 * pulse))
  refine h.delivered (f := pushBit (decide (3 * unit ≤ 2 * pulse)) (s.waveRecorded p pulse unit))
    (fun hcal => by rw [hmode] at hcal; cases hcal) ?_ (by rw [pushBit_cfg, hcfg]) (pushBit_wf _ hwf)
    (by rw [hdiscard, setRx_rx]) (by rw [hdiscard, setRx_rx, hbitcnt]) (by rw [hdiscard, setRx_rx, hrxcnt])
    (by rw [pushBit_bad, hbad])
  rw [takeBits, if_neg (by rw [hcfg, hmode]; decide)]
  have hdecode := winDecode_of_frame hruns hunit hlow hhigh
  have hmin := windowMin_of_frame hruns (by rw [hcfg]; omega)
  have hclear := timingClear_of_frame hruns (by rw [hcfg]; exact hureject) (by rw [hcfg]; omega)
  rw [framerView, if_pos ⟨by rw [hcfg, hmode], hclear⟩, hmin, hmin, hdecode]

end Sys2Proof.Machine
end

section
/-!
PROOFS. The interval classes of `RXSTEP` (R113 to R123): which of them only let time pass, what every accepted
transition of an open message does, and the bit, the unit or the mark that a class adds to it.
-/

namespace Sys2Proof.Machine

section Frame

variable {s t u : State}

theorem sameOutsideReceiver_refl (s : State) : SameOutsideReceiver s s :=
  ⟨rfl, rfl, rfl, rfl, rfl, fun _ => rfl, fun _ => rfl⟩

/-- Writing the receive path's registers stays inside the receiver. -/
theorem sameOutsideReceiver_setRx (h : SameOutsideReceiver s t) (r : RxPath) : SameOutsideReceiver s (t.setRx r) :=
  { h with }

theorem sameOutsideReceiver_record (l : Level) (d : Nat) (s : State) : SameOutsideReceiver s (record l d s) := by
  rcases record_cases l d s with ⟨-, e⟩ | ⟨-, e⟩ <;> rw [e]
  · exact ⟨rfl, rfl, rfl, rfl, rfl, fun _ => rfl, fun _ => rfl⟩
  · exact sameOutsideReceiver_setRx (sameOutsideReceiver_refl s) _

theorem sameOutsideReceiver_pushBit (h : SameOutsideReceiver s t) (b : Bool) :
    SameOutsideReceiver s (pushBit b t) := by
  rcases pushBit_cases b t with ⟨-, e⟩ | ⟨-, -, -, e⟩ | ⟨-, -, -, e⟩ | ⟨-, -, e⟩ <;> rw [e]
  · exact sameOutsideReceiver_setRx h _
  · exact { h with }
  · exact sameOutsideReceiver_setRx h _
  · exact sameOutsideReceiver_setRx h _

end Frame

/-- Settles O17: both are `passTime`. -/
theorem holdAndNoiseOnlyPassTime : Obligations.HoldAndNoiseOnlyPassTime := fun s _ _ _ _ _ _ =>
  ⟨passTime s, exec_eq_effect _ s, exec_eq_effect _ s, rfl, rfl,
    sameOutsideReceiver_setRx (sameOutsideReceiver_refl s) _, rfl⟩

/-- Settles O18. -/
theorem firstOpensAMessage : Obligations.FirstOpensAMessage := fun s _ _ _ _ =>
  ⟨_, exec_eq_effect _ s, rfl, sameOutsideReceiver_setRx (sameOutsideReceiver_refl s) _, rfl⟩

/-- What every accepted transition of an open message does, whatever its class adds: the interval recorded, the new
level tracked and `ELAPSED` cleared (R110, R113). -/
structure IntervalTaken (s t : State) : Prop where
  event : EventAppended s t
  noBit : NoBitPushed s t
  frame : SameOutsideReceiver s t
  level : t.rx.level = s.rxIn
  elapsed : t.rx.elapsed = 0
  phase : t.rx.phase = s.rx.phase
  unit : t.rx.unit = s.rx.unit
  bad : t.rx.bad = s.rx.bad

theorem intervalTaken_accept_record {s : State} (hs : s.mem.wf) :
    IntervalTaken s (accept (record s.rx.level s.diff s)) where
  event := eventAppended_of_same_window (eventAppended_record hs) rfl rfl rfl
  noBit := { recordRuns_noBitPushed [(s.rx.level, s.diff)] s with }
  frame := sameOutsideReceiver_setRx (sameOutsideReceiver_record _ _ s) _
  level := rxIn_of_env (record_env ..)
  elapsed := rfl
  phase := record_phase ..
  unit := record_unit ..
  bad := record_bad ..

/-- Settles O19: `CALIB` adds the unit and the phase. -/
theorem calibFixesTheUnit : Obligations.CalibFixesTheUnit := by
  intro s m a b c hs
  have h := intervalTaken_accept_record hs
  have hunit : 10 * (9 * s.diff / 10) ≤ 9 * s.diff ∧ 9 * s.diff < 10 * (9 * s.diff / 10 + 1) := by omega
  exact ⟨_, exec_eq_effect _ s, rfl, h.level, rfl, hunit, h.bad, eventAppended_of_same_window h.event rfl rfl rfl,
    { h.noBit with }, sameOutsideReceiver_setRx h.frame _⟩

/-- Settles O21: both classes add the mark alone. -/
theorem runtAndLongMarkTheMessageBad : Obligations.RuntAndLongMarkTheMessageBad := by
  intro s a b c hs
  have h := intervalTaken_accept_record hs
  exact ⟨_, exec_eq_effect _ s, exec_eq_effect _ s, rfl, eventAppended_of_same_window h.event rfl rfl rfl,
    { h.noBit with }, sameOutsideReceiver_setRx h.frame _, h.level, rfl, h.phase, h.unit⟩

/-- Settles O22: `REC` adds nothing. -/
theorem recOnlyRecords : Obligations.RecOnlyRecords := by
  intro s a b c hs
  have h := intervalTaken_accept_record hs
  exact ⟨_, exec_eq_effect _ s, h.bad, h.event, h.noBit, h.frame, h.level, h.elapsed, h.phase, h.unit⟩

section Bit

variable {s t u : State}

/-- `{SHREG[6:0], b}` is the register shifted up by one with the bit below (R140). -/
theorem shiftIn_eq_shiftLeft_or (r : BitVec 8) (b : Bool) : shiftIn r b = (r <<< 1) ||| (if b then 1 else 0) := by
  refine BitVec.eq_of_getLsbD_eq fun i hi => ?_
  rw [shiftIn_getLsbD r b hi]
  cases i with
  | zero => cases b <;> simp
  | succ i => cases b <;> simp [hi, BitVec.getLsbD_eq_getElem (Nat.lt_of_succ_lt hi)]

/-- `PUSHBIT(b)` pushes its bit (R140). -/
theorem bitPushed_pushBit (b : Bool) (hs : s.mem.wf) : BitPushed b s (pushBit b s) := by
  have hshift := shiftIn_eq_shiftLeft_or s.rx.shreg b
  rcases pushBit_cases b s with ⟨hskip, e⟩ | ⟨hskip, h7, hroom, e⟩ | ⟨hskip, h7, hfull, e⟩ | ⟨hskip, h7, e⟩ <;>
    rw [e]
  · exact
      { discarded := fun _ => ⟨rfl, rfl, rfl, rfl⟩
        shifted := fun h0 => by omega
        counted := fun h0 => by omega
        stored := fun h0 => by omega
        others := fun _ _ => rfl }
  · exact
      { discarded := fun hpos => by omega
        shifted := fun _ => ⟨hskip, hshift, (if_pos h7).symm⟩
        counted := fun _ => (if_pos ⟨h7, hroom⟩).symm
        stored := fun _ _ _ => readRxbuf_writeRxbuf _ _ hs
        others := fun i hi => readRxbuf_writeRxbuf_other _ _ (by simpa [hskip, h7, Nat.not_le.mpr hroom] using hi) }
  · exact
      { discarded := fun hpos => by omega
        shifted := fun _ => ⟨hskip, hshift, (if_pos h7).symm⟩
        counted := fun _ => (if_neg fun hroom => by omega).symm
        stored := fun _ _ hroom => by omega
        others := fun _ _ => rfl }
  · exact
      { discarded := fun hpos => by omega
        shifted := fun _ => ⟨hskip, hshift, (if_neg h7).symm⟩
        counted := fun _ => (if_neg fun hlast => h7 hlast.1).symm
        stored := fun _ hlast => absurd hlast h7
        others := fun _ _ => rfl }

/-- A bit pushed behind an operation that pushed none is pushed into the assembler as it was before. -/
theorem bitPushed_of_noBitPushed {b : Bool} (hno : NoBitPushed s u) (hcfg : u.cfg = s.cfg) (h : BitPushed b u t) :
    BitPushed b s t := by
  obtain ⟨hskip, hshreg, hbitcnt, hrxcnt, hrxbuf⟩ := hno
  obtain ⟨hdiscarded, hshifted, hcounted, hstored, hothers⟩ := h
  rw [hskip] at hdiscarded hshifted hcounted hstored hothers
  rw [hshreg, hbitcnt] at hdiscarded hshifted
  rw [hrxcnt] at hdiscarded hcounted hstored hothers
  rw [hbitcnt, hcfg] at hcounted hstored hothers
  exact ⟨hdiscarded, hshifted, hcounted, hstored, fun i hi => (hothers i hi).trans (hrxbuf i)⟩

/-- An interval taken and its bit pushed: what `ZERO` and `ONE` do (R119, R120). -/
theorem pushBit_intervalTaken (b : Bool) (hs : s.mem.wf) :
    let t := pushBit b (accept (record s.rx.level s.diff s))
    BitPushed b s t ∧ EventAppended s t ∧ SameOutsideReceiver s t ∧ t.rx.level = s.rxIn ∧ t.rx.elapsed = 0 ∧
      t.rx.phase = s.rx.phase ∧ t.rx.unit = s.rx.unit ∧ t.rx.bad = s.rx.bad := by
  have h := intervalTaken_accept_record hs
  have hwf : (accept (record s.rx.level s.diff s)).mem.wf := record_wf _ _ hs
  exact ⟨bitPushed_of_noBitPushed h.noBit h.frame.cfg (bitPushed_pushBit b hwf),
    eventAppended_of_same_window h.event (pushBit_cwcnt ..) (pushBit_cwovf ..) (pushBit_mem_cw ..),
    sameOutsideReceiver_pushBit h.frame b, (pushBit_level ..).trans h.level, pushBit_elapsed ..,
    (pushBit_phase ..).trans h.phase, (pushBit_unit ..).trans h.unit, (pushBit_bad ..).trans h.bad⟩

end Bit

/-- Settles O20: an interval taken, then the class's bit. -/
theorem zeroAndOnePushTheirBit : Obligations.ZeroAndOnePushTheirBit := fun s hs =>
  ⟨⟨_, exec_eq_effect _ s, pushBit_intervalTaken false hs⟩, _, exec_eq_effect _ s, pushBit_intervalTaken true hs⟩

end Sys2Proof.Machine
end

section
/-!
PROOFS. The count of units (R112), the window decode of `MIN` mode (R122, R153), and what `GATE` leaves of a message:
the posted result, the delivered payload and the per-message state (R111, R150, R160 to R162).
-/

namespace Sys2Proof.Machine

section Count

variable {d u : Nat}

theorem cnt_eq_zero (h : 2 * d < u) : cnt d u = 0 := if_pos h

theorem cnt_eq_one (hlow : u ≤ 2 * d) (hhigh : 2 * d < 3 * u) : cnt d u = 1 := by
  rw [cnt, if_neg (by omega), if_pos hhigh]

theorem cnt_eq_two (hlow : 3 * u ≤ 2 * d) (hhigh : 2 * d < 5 * u) : cnt d u = 2 := by
  rw [cnt, if_neg (by omega), if_neg (by omega), if_pos hhigh]

theorem cnt_eq_three (hlow : 5 * u ≤ 2 * d) : cnt d u = 3 := by
  rw [cnt, if_neg (by omega), if_neg (by omega), if_neg (by omega)]

/-- `d / u` lies within half a unit of `k`, ties up: then it rounds to `k` (R112). -/
theorem rounded_eq {k : Nat} (hlow : 2 * (k * u) ≤ 2 * d + u) (hhigh : 2 * d + u < 2 * ((k + 1) * u)) :
    (2 * d + u) / (2 * u) = k := Nat.div_eq_of_lt_le (by linarith) (by linarith)

/-- By the thresholds of rule R112's table. -/
theorem cnt_eq_rounded (hu : 0 < u) : cnt d u = min 3 ((2 * d + u) / (2 * u)) := by
  rcases lt_or_ge (2 * d) u with h1 | h1
  · rw [cnt_eq_zero h1, rounded_eq (k := 0) (by omega) (by omega)]
    rfl
  rcases lt_or_ge (2 * d) (3 * u) with h3 | h3
  · rw [cnt_eq_one h1 h3, rounded_eq (k := 1) (by omega) (by omega)]
    rfl
  rcases lt_or_ge (2 * d) (5 * u) with h5 | h5
  · rw [cnt_eq_two h3 h5, rounded_eq (k := 2) (by omega) (by omega)]
    rfl
  · rw [cnt_eq_three h5, Nat.min_eq_left ((Nat.le_div_iff_mul_le (by omega)).mpr (by omega))]

end Count

/-- Settles O36: with `u = 0` no comparison but the last can hold. -/
theorem countRoundsHalfUpClippedAtThree : Obligations.CountRoundsHalfUpClippedAtThree := fun _ _ =>
  ⟨cnt_eq_zero, cnt_eq_one, cnt_eq_two, cnt_eq_three, cnt_eq_three (Nat.zero_le _), cnt_eq_rounded⟩

section Finalization

variable {s : State}

/-- A conclusion keeps what the line drives and clears the rest as after reset (R162). -/
theorem conclude_rx (lo hi : Nat) (c : BitVec 5) (s : State) : (conclude lo hi c s).rx =
    { RxPath.reset s.cfg with
      phase := s.rx.phase, level := s.rx.level, elapsed := s.rx.elapsed, unit := s.rx.unit } := by
  simp only [conclude]
  split <;> rfl

theorem finalize_rx (s : State) : (finalize s).rx =
    { RxPath.reset s.cfg with
      phase := s.rx.phase, level := s.rx.level, elapsed := s.rx.elapsed, unit := s.rx.unit } := by
  simp only [finalize, conclude_rx, assembled_cfg, assembled_phase, assembled_level, assembled_elapsed,
    assembled_unit]

/-- Every message is given a kind (R150). -/
theorem verdict_ne_none (s : State) (c : BitVec 5) : verdict s c ≠ .none := by
  unfold verdict
  split_ifs <;> exact fun h => nomatch h

/-- A finalization judges the framer's view, and posts its kind, its bytes and its `BADSYM` (R150, R161). -/
theorem finalize_posts_framerView (s : State) :
    (finalize s).res.stat = verdict (framerView s) (finalize s).res.cause ∧
      (finalize s).res.nbytes = (framerView s).rx.rxcnt ∧
      (finalize s).res.cause.getLsbD 2 = (framerView s).rx.bad := by
  refine ⟨?_, ?_, by rw [finalize_cause]; simp only [causeOf_bits]⟩
  · rw [finalize_eq, conclude_cause, conclude_res]
  · rw [finalize_eq, conclude_res]

theorem finalize_stat_ne_none (s : State) : (finalize s).res.stat ≠ .none := by
  rw [(finalize_posts_framerView s).1]
  exact verdict_ne_none _ _

/-- The minima and the handshake flags are posted whatever the kind (R161). -/
theorem finalize_posts_always (s : State) :
    (finalize s).res.done = true ∧ (finalize s).res.ovr = (s.res.ovr || s.res.done) ∧
      (finalize s).res.minLow = windowMin s false ∧ (finalize s).res.minHigh = windowMin s true := by
  rw [finalize_eq, conclude_res, framerView_res]
  exact ⟨rfl, rfl, rfl, rfl⟩

theorem finalize_len (s : State) : (finalize s).res.len =
    if (finalize s).res.stat = .ok then rxLenField (framerView s) else 0 := by
  rw [finalize_eq, conclude_res]

/-- Writing the entries below `n` leaves those at or beyond it. -/
theorem foldl_writeRxpay_read_beyond (f : Nat → Byte) (m : Memory) {n i : Nat} (hi : n ≤ i) :
    ((List.range n).foldl (fun m i => m.writeRxpay i (f i)) m).readRxpay i = m.readRxpay i := by
  induction n with
  | zero => rfl
  | succ n ih => rw [List.range_succ, List.foldl_concat, readRxpay_writeRxpay_other _ _ (by omega), ih (by omega)]

theorem deliver_readRxpay_beyond {n i : Nat} (hi : n ≤ i) : (deliver n s).mem.readRxpay i = s.mem.readRxpay i :=
  foldl_writeRxpay_read_beyond (fun i => ciph s.cfg (s.rxByte (payloadAt s.cfg + i)) i) s.mem hi

/-- `RXPAY` behind a conclusion: an `OK` payload decrypted from `RXBUF`, everything else as it was (R160). -/
theorem conclude_readRxpay (lo hi : Nat) (c : BitVec 5) (s : State) :
    (s.mem.wf → ∀ i, i < (conclude lo hi c s).res.len → (conclude lo hi c s).mem.readRxpay i =
      ciph s.cfg (s.mem.readRxbuf (payloadAt s.cfg + i)) i) ∧
    ∀ i, (conclude lo hi c s).res.len ≤ i → (conclude lo hi c s).mem.readRxpay i = s.mem.readRxpay i := by
  rw [conclude_res]
  by_cases hok : verdict s c = .ok
  · obtain ⟨-, -, -, hbytes, -⟩ := verdict_ok hok
    have hmem : (conclude lo hi c s).mem = (deliver (rxLenField s) s).mem := by simp [conclude, hok]
    simp only [if_pos hok, hmem]
    exact ⟨fun hs i hi => by rw [deliver_readRxpay hs hi, rxByte_below (by omega)],
      fun i hi => deliver_readRxpay_beyond hi⟩
  · have hkept : ∀ i, (conclude lo hi c s).mem.readRxpay i = s.mem.readRxpay i := fun i => by
      rw [Memory.readRxpay, conclude_rxpay_of_not_ok hok]
      rfl
    simp only [if_neg hok]
    exact ⟨fun _ i hi => absurd hi (Nat.not_lt_zero i), fun i _ => hkept i⟩

theorem finalize_readRxpay (s : State) :
    (s.mem.wf → ∀ i, i < (finalize s).res.len → (finalize s).mem.readRxpay i =
      ciph s.cfg ((framerView s).mem.readRxbuf (payloadAt s.cfg + i)) i) ∧
    ∀ i, (finalize s).res.len ≤ i → (finalize s).mem.readRxpay i = s.mem.readRxpay i := by
  rw [finalize_eq]
  obtain ⟨hpayload, hrest⟩ := conclude_readRxpay (windowMin s false) (windowMin s true)
    (fullCause (framerView s) (timingCause s (windowMin s false) (windowMin s true))) (framerView s)
  refine ⟨fun hs i hi => ?_, fun i hi => ?_⟩
  · rw [hpayload (framerView_wf hs) i hi, framerView_cfg]
  · rw [hrest i hi, Memory.readRxpay, framerView_mem_rxpay]
    rfl

end Finalization

/-- Settles O23: the gate is a finalization and the phase `IDLE`. -/
theorem gateEndsTheMessage : Obligations.GateEndsTheMessage := by
  intro s low
  refine ⟨effect (.gate low) s, exec_eq_effect _ s, ?_⟩
  simp only [effect_gate, setRx_cfg, setRx_rx, setRx_res, setRx_tx, setRx_cmdErr, setRx_mem, setRx_env]
  obtain ⟨hstat, hnbytes, -⟩ := finalize_posts_framerView s
  obtain ⟨hdone, hovr, hlow, hhigh⟩ := finalize_posts_always s
  obtain ⟨hpayload, hrest⟩ := finalize_readRxpay s
  have hok : (finalize s).res.stat = .ok → (finalize s).res.len = rxLenField (framerView s) := fun h => by
    rw [finalize_len, if_pos h]
  have hnot : (finalize s).res.stat ≠ .ok → (finalize s).res.len = 0 := fun h => by rw [finalize_len, if_neg h]
  refine ⟨by rw [finalize_rx]; rfl, hdone, hovr, finalize_stat_ne_none s, hstat, hnbytes, finalize_badTiming_iff s,
    hnot, fun h => ⟨hok h, hpayload⟩, hlow, hhigh, finalize_cfg s, finalize_tx s, finalize_cmdErr s, finalize_env s,
    fun k => ?_, fun i => ?_, fun h i => hrest i (by rw [hnot h]; exact Nat.zero_le i), hrest⟩
  · simp only [Memory.readCw, finalize_mem_cw]
  · simp only [Memory.readTxbuf, finalize_mem_txbuf]

/-- The counts that `SYMBOL` takes as a bit (R122). -/
def isBitCount (n : Nat) : Bool := n == 1 || n == 2

/-- `BAD` set in addition, or left as it is (R122). -/
def State.badIf (b : Bool) (s : State) : State := s.setRx { s.rx with bad := s.rx.bad || b }

section WindowDecode

variable {s : State}

theorem badIf_false (s : State) : s.badIf false = s := by simp [State.badIf, State.setRx]

theorem badIf_true (s : State) : s.badIf true = markBad s := by simp [State.badIf, markBad]

theorem badIf_badIf (a b : Bool) (s : State) : (s.badIf a).badIf b = s.badIf (a || b) := by
  simp [State.badIf, State.setRx, Bool.or_assoc]

/-- The mark and the assembler do not touch each other. -/
theorem pushBits_badIf (bs : List Bool) (b : Bool) (s : State) : pushBits bs (s.badIf b) = (pushBits bs s).badIf b :=
  List.foldl_hom (State.badIf b) fun t c => by
    simp only [pushBit, apply_ite (State.badIf b)]
    rfl

/-- `SYMBOL` by its count alone: the bit pushed, if it is one, and `BAD` set if not (R122). -/
theorem symbol_eq {d u n : Nat} (h : n = cnt d u) (s : State) : symbol d u s =
    (pushBits (([n].filter isBitCount).map (· == 2)) s).badIf (!isBitCount n) := by
  rcases symbol_cases d u s with ⟨hn, e⟩ | ⟨hn, e⟩ | ⟨h1, h2, e⟩ <;> rw [e, h]
  · rw [hn]
    exact (badIf_false _).symm
  · rw [hn]
    exact (badIf_false _).symm
  · have hbit : isBitCount (cnt d u) = false := by simp [isBitCount, h1, h2]
    rw [hbit, List.filter_cons_of_neg (by simp [hbit]), Bool.not_false, badIf_true]
    rfl

/-- A list of symbols by their counts: the bits among them pushed in order, `BAD` set if one is no bit (R122, R153). -/
theorem foldl_symbol_eq {dur unit count : Nat → Nat} (ks : List Nat) (h : ∀ k ∈ ks, count k = cnt (dur k) (unit k))
    (s : State) : ks.foldl (fun t k => symbol (dur k) (unit k) t) s =
      (pushBits ((ks.filter fun k => isBitCount (count k)).map fun k => count k == 2) s).badIf
        (ks.any fun k => !isBitCount (count k)) := by
  induction ks generalizing s with
  | nil => exact (badIf_false s).symm
  | cons k ks ih =>
    obtain ⟨hk, hks⟩ := List.forall_mem_cons.mp h
    rw [List.foldl_cons, ih hks, symbol_eq hk, pushBits_badIf, badIf_badIf, ← pushBits_append, List.any_cons]
    cases hbit : isBitCount (count k) <;> simp [hbit]

/-- The window decode, event by event (R153). -/
theorem winDecode_eq {lo hi : Nat} {count : Nat → Nat} (h : ∀ k, k < s.rx.cwcnt →
      count k = cnt (s.mem.readCw k).dur (if (s.mem.readCw k).level then hi else lo)) :
    winDecode lo hi s =
      (pushBits (((List.range s.rx.cwcnt).filter fun k => isBitCount (count k)).map fun k => count k == 2) s).badIf
        ((List.range s.rx.cwcnt).any fun k => !isBitCount (count k)) :=
  foldl_symbol_eq _ (fun k hk => by
    have hk := List.mem_range.mp hk
    rw [h k hk, State.cwEvent, if_pos hk]) s

/-- An event of another count makes the message bad (R153). -/
theorem winDecode_bad {lo hi : Nat} {count : Nat → Nat} (h : ∀ k, k < s.rx.cwcnt →
      count k = cnt (s.mem.readCw k).dur (if (s.mem.readCw k).level then hi else lo))
    {k : Nat} (hk : k < s.rx.cwcnt) (h1 : count k ≠ 1) (h2 : count k ≠ 2) : (winDecode lo hi s).rx.bad = true := by
  have hany : ((List.range s.rx.cwcnt).any fun k => !isBitCount (count k)) = true :=
    List.any_eq_true.mpr ⟨k, List.mem_range.mpr hk, by simp [isBitCount, h1, h2]⟩
  rw [winDecode_eq h, hany, badIf_true]
  rfl

/-- In `MIN` mode with clear timing the framer sees the decoded window (R150). -/
theorem framerView_min (hmode : s.cfg.decodeMode = .min) (hclear : timingClear s) :
    framerView s = winDecode (windowMin s false) (windowMin s true) s := if_pos ⟨hmode, hclear⟩

/-- Otherwise it sees the bytes assembled so far (R150). -/
theorem framerView_undecoded (h : s.cfg.decodeMode = .cal ∨ ¬ timingClear s) : framerView s = s :=
  if_neg fun ⟨hmode, hclear⟩ => h.elim (fun hcal => by rw [hcal] at hmode; cases hmode) fun hnot => hnot hclear

end WindowDecode

/-- Settles O44: the decode by its counts, and the gate by the framer's view. -/
theorem minModeReadsTheWindow : Obligations.MinModeReadsTheWindow := by
  intro s lo hi count h
  refine ⟨⟨_, rfl, ?_⟩, fun hvalid => ?_, fun k hk h1 h2 => winDecode_bad h hk h1 h2, fun low => ?_⟩
  · exact (winDecode_eq h).trans (by rw [State.badIf, pushBits_bad]; rfl)
  · refine winDecode_of_valid (fun k => count k == 2) fun k hk => ?_
    rw [← h k hk]
    rcases hvalid k hk with hone | htwo
    · rw [hone]
      rfl
    · rw [htwo]
      rfl
  · obtain ⟨hstat, hnbytes, hbadsym⟩ := finalize_posts_framerView s
    refine ⟨effect (.gate low) s, exec_eq_effect _ s, fun hmode hclear hlo hhi => ?_, fun hundecoded => ?_⟩
    · rw [framerView_min hmode hclear, ← hlo, ← hhi] at hstat hnbytes hbadsym
      exact ⟨hnbytes, hbadsym, hstat⟩
    · rw [framerView_undecoded hundecoded] at hstat hnbytes hbadsym
      exact ⟨hnbytes, hbadsym, hstat⟩

end Sys2Proof.Machine
end

section
/-!
PROOFS. One interval over time: how long it is measured to be, when the silence behind it ends the message, and what
becomes of a change that comes too early (R111, R113, R115, R124, R125).
-/

namespace Sys2Proof.Machine

/-- The state with the line unchanged for `e` ticks since the last accepted transition (R24, R114). -/
def State.waited (e : Nat) (s : State) : State := s.timed s.rx.phase s.rx.unit s.rx.level e

section Waiting

variable {s : State}

theorem waited_eq (e : Nat) (s : State) : s.waited e = s.setRx { s.rx with elapsed := e } := rfl

theorem passTime_waited (e : Nat) (s : State) : passTime (s.waited e) = s.waited (s.waited e).diff := rfl

/-- The present tick is counted in (R24). -/
theorem diff_waited (hc : configOk s.cfg = true) {e : Nat} (he : e ≤ s.cfg.rxEndPeriod) : (s.waited e).diff = e + 1 :=
  diff_eq (s := s.waited e) hc he

/-- A held level only counts time (R125). -/
theorem rxFeed_held_waited (hc : configOk s.cfg = true) (he : s.rx.elapsed = 0) {k : Nat}
    (hk : k ≤ s.cfg.rxEndPeriod) : rxFeed (List.replicate k s.rx.level) s = s.waited k := by
  rw [rxFeed_held hc k (by omega), he, Nat.zero_add, waited_eq]

/-- A change before `RX_REJECT_PERIOD` is noise (R115). -/
theorem rxStep_of_early {l : Level} (hG : flagG s = false) (hearly : s.diff < s.cfg.rxRejectPeriod) :
    rxStep l s = passTime s := by
  simp only [rxStep, rxGate_of_not_flagG hG, if_pos hearly, ite_self]
  rfl

/-- Whatever the line does while a change comes too early only counts time (R124). -/
theorem rxFeed_early (hc : configOk s.cfg = true) (l : Level) {k : Nat}
    (hk : s.rx.elapsed + k < s.cfg.rxRejectPeriod) :
    rxFeed (List.replicate k l) s = s.waited (s.rx.elapsed + k) := by
  have hend := configOk_reject_le hc
  induction k with
  | zero => rfl
  | succ k ih =>
    have hdiff := diff_waited (s := s) hc (e := s.rx.elapsed + k) (by omega)
    have hG : flagG (s.waited (s.rx.elapsed + k)) = false :=
      flagG_of_early (hdiff.trans_le (Nat.le_trans (by omega) hend))
    rw [List.replicate_succ', rxFeed_append, ih (by omega), rxFeed_singleton,
      rxStep_of_early hG (hdiff.trans_lt hk), passTime_waited, hdiff, Nat.add_assoc]

/-- A change at the end of an interval of `d` ticks within the thresholds is accepted with `diff = d` (R110). -/
theorem rxStep_waited (hc : configOk s.cfg = true) {d : Nat} (hpos : 1 ≤ d) (hreject : s.cfg.rxRejectPeriod ≤ d)
    (hend : d ≤ s.cfg.rxEndPeriod) :
    rxStep (!s.rx.level) (s.waited (d - 1)) = rxTransition (!s.rx.level) d (s.waited (d - 1)) := by
  have hd : d - 1 + 1 = d := Nat.sub_add_cancel hpos
  have hchange := rxStep_timed hc s.rx.phase s.rx.unit s.rx.level (e := d - 1) (by rwa [hd]) (by rwa [hd])
  rwa [hd] at hchange

/-- In the tick of the gate the held level is counted like in any other (R110, R111). -/
theorem rxStep_silence_elapsed (hc : configOk s.cfg = true) (hp : s.rx.phase ≠ .idle)
    (he : s.rx.elapsed = s.cfg.rxEndPeriod) : (rxStep s.rx.level s).rx.elapsed = s.cfg.rxEndPeriod + 1 := by
  have hdiff := diff_eq hc he.le
  have hG : flagG s = true := (flagG_iff s).mpr ⟨hp, by omega⟩
  have hlevel : s.rx.level = (rxGate s).rx.level := by rw [rxGate_of_flagG hG]; simp
  simp only [rxStep, if_pos hlevel, setRx_rx, hdiff, he]

end Waiting

section Change

variable {s : State}

/-- The line after an accepted transition, whatever the phase: the new level, tracked from now on (R116 to R121). -/
theorem rxTransition_line (l : Level) (d : Nat) (s : State) :
    (rxTransition l d s).rx.level = l ∧ (rxTransition l d s).rx.elapsed = 0 ∧
      (rxTransition l d s).rx.phase = if s.rx.phase = .idle then .start else .data := by
  cases hp : s.rx.phase with
  | idle => simp [rxTransition, hp]
  | start => simp [rxTransition, hp]
  | data => by_cases hmode : s.cfg.decodeMode = .cal <;> simp [rxTransition, hp, hmode]

/-- An accepted transition of an open message records the interval it ends (R113, R117 to R121). -/
theorem eventAppended_rxTransition (hs : s.mem.wf) (hp : s.rx.phase ≠ .idle) (l : Level) {d : Nat}
    (hd : s.diff = d) : EventAppended s (rxTransition l d s) := by
  subst hd
  have hrecord : EventAppended s (record s.rx.level s.diff (s.timed s.rx.phase s.rx.unit l 0)) := by
    rw [record_timed]
    exact eventAppended_of_same_window (eventAppended_record hs) rfl rfl rfl
  unfold rxTransition
  cases hphase : s.rx.phase with
  | idle => exact absurd hphase hp
  | start => exact eventAppended_of_same_window hrecord rfl rfl rfl
  | data =>
    dsimp only
    split
    · exact eventAppended_of_same_window hrecord (symbol_cwcnt ..) (symbol_cwovf ..) (symbol_mem_cw ..)
    · exact hrecord

end Change

/-- Settles O54: the level is held for `d - 1` ticks, and the change in the next is accepted with `diff = d`. -/
theorem intervalsAreMeasuredToTheTick : Obligations.IntervalsAreMeasuredToTheTick := by
  intro s d hc hs hp he hpos hreject hend
  have hheld := rxFeed_held_waited hc he (k := d - 1) (by omega)
  have hdiff : (s.waited (d - 1)).diff = d := by rw [diff_waited hc (by omega), Nat.sub_add_cancel hpos]
  obtain ⟨hlevel, helapsed, hphase⟩ := rxTransition_line (!s.rx.level) d (s.waited (d - 1))
  refine ⟨hheld, ?_⟩
  dsimp only
  rw [rxFeed_append, hheld, rxFeed_singleton, rxStep_waited hc hpos hreject hend]
  refine ⟨helapsed, hlevel, hphase.trans (if_neg hp), fun hroom => ?_⟩
  obtain ⟨hcount, -, hevent⟩ :=
    (eventAppended_rxTransition (s := s.waited (d - 1)) hs hp (!s.rx.level) hdiff).fits hroom
  rw [hdiff] at hevent
  exact ⟨hcount, hevent⟩

/-- Settles O55: the level is held up to the threshold, and the next tick is the gate's. -/
theorem gateFiresAfterTheSilence : Obligations.GateFiresAfterTheSilence := by
  intro s hc hp he
  obtain ⟨hres, -, hidle⟩ := rxStep_silence (s := s.waited s.cfg.rxEndPeriod) hc hp rfl
  have helapsed := rxStep_silence_elapsed (s := s.waited s.cfg.rxEndPeriod) hc hp rfl
  obtain ⟨hdone, -⟩ := finalize_posts_always (s.waited s.cfg.rxEndPeriod)
  refine ⟨fun k hk => rxFeed_held_waited hc he hk, ?_⟩
  dsimp only
  rw [List.replicate_succ', rxFeed_append, rxFeed_held_waited hc he (Nat.le_refl _), rxFeed_singleton]
  exact ⟨hidle, (congrArg RxResult.done hres).trans hdone,
    fun hnone => finalize_stat_ne_none _ ((congrArg RxResult.stat hres).symm.trans hnone), helapsed⟩

/-- Settles O56: noise up to the tick before, and accepted in the first with `diff = RX_REJECT_PERIOD`. -/
theorem earlyChangeIsAcceptedLate : Obligations.EarlyChangeIsAcceptedLate := by
  intro s hc he
  refine ⟨fun k hk => rxFeed_early hc _ hk, ?_⟩
  have hlast : s.cfg.rxRejectPeriod - s.rx.elapsed = s.cfg.rxRejectPeriod - 1 - s.rx.elapsed + 1 := by omega
  have hbefore : s.rx.elapsed + (s.cfg.rxRejectPeriod - 1 - s.rx.elapsed) = s.cfg.rxRejectPeriod - 1 := by omega
  dsimp only
  rw [hlast, List.replicate_succ', rxFeed_append, rxFeed_early hc _ (by omega), hbefore, rxFeed_singleton,
    rxStep_waited hc (by omega) (Nat.le_refl _) (configOk_reject_le hc)]
  exact rxTransition_line ..

end Sys2Proof.Machine
end

section
/-!
PROOFS. The bit assembler, one bit and then many: what `PUSHBIT` changes and leaves (R140), and the length law of the
bits received since `CLEAR` (R142, R143, R145).
-/

namespace Sys2Proof.Machine

/-- `PUSHBIT` writes no register of the receive path but the assembler's four (R140). -/
theorem pushBit_rx (b : Bool) (s : State) : (pushBit b s).rx =
    { s.rx with
      skip := (pushBit b s).rx.skip, shreg := (pushBit b s).rx.shreg, bitcnt := (pushBit b s).rx.bitcnt
      rxcnt := (pushBit b s).rx.rxcnt } := by
  rcases pushBit_cases b s with ⟨-, e⟩ | ⟨-, -, -, e⟩ | ⟨-, -, -, e⟩ | ⟨-, -, e⟩ <;> rw [e] <;> rfl

/-- Settles O37. -/
theorem pushBitFollowsTheRule : Obligations.PushBitFollowsTheRule := fun b s hs =>
  ⟨bitPushed_pushBit b hs, sameOutsideReceiver_pushBit (sameOutsideReceiver_refl s) b,
    fun k => by simp only [Memory.readCw, pushBit_mem_cw], pushBit_rx b s⟩

/-- The assembler's counters after `n` bits from a clean message, start bits included (R142, R143, R145). -/
structure BitsReceived (n : Nat) (s : State) : Prop where
  rxcnt : s.rx.rxcnt = min ((n - s.cfg.rxStartBits) / 8) s.cfg.rxbufCap
  bitcnt : s.rx.bitcnt.toNat = (n - s.cfg.rxStartBits) % 8
  skip : s.rx.skip = s.cfg.rxStartBits - n

section Received

variable {s : State}

/-- A clean message has received no bits (R116, R143). -/
theorem bitsReceived_zero (hskip : s.rx.skip = s.cfg.rxStartBits) (hrxcnt : s.rx.rxcnt = 0)
    (hbitcnt : s.rx.bitcnt = 0) : BitsReceived 0 s where
  rxcnt := by simp [hrxcnt]
  bitcnt := by simp [hbitcnt]
  skip := hskip

/-- One bit more: a start bit is counted off, the eighth bit of a byte counts the byte if there is room, any other bit
is counted in (R140). -/
theorem bitsReceived_pushBit {n : Nat} (b : Bool) (h : BitsReceived n s) : BitsReceived (n + 1) (pushBit b s) := by
  obtain ⟨hrxcnt, hbitcnt, hskip⟩ := h
  have hseven : s.rx.bitcnt = 7 ↔ s.rx.bitcnt.toNat = 7 := BitVec.toNat_inj.symm
  rcases pushBit_cases b s with ⟨hpos, e⟩ | ⟨h0, h7, hroom, e⟩ | ⟨h0, h7, hfull, e⟩ | ⟨h0, h7, e⟩ <;> rw [e]
  · constructor <;> simp only [setRx_rx, setRx_cfg] <;> omega
  · have hlast := hseven.mp h7
    constructor <;> simp only [setRx_rx, setRx_cfg, setMem_cfg, BitVec.reduceToNat] <;> omega
  · have hlast := hseven.mp h7
    constructor <;> simp only [setRx_rx, setRx_cfg, BitVec.reduceToNat] <;> omega
  · have hmore := mt hseven.mpr h7
    have hnext : (s.rx.bitcnt + 1).toNat = s.rx.bitcnt.toNat + 1 := by bv_omega
    constructor <;> simp only [setRx_rx, setRx_cfg] <;> omega

/-- The bits of a list are received behind those before them. -/
theorem bitsReceived_pushBits {n : Nat} (bs : List Bool) (h : BitsReceived n s) :
    BitsReceived (n + bs.length) (pushBits bs s) := by
  induction bs generalizing n s with
  | nil => exact h
  | cons b bs ih =>
    rw [List.length_cons, Nat.add_comm bs.length, ← Nat.add_assoc]
    exact ih (bitsReceived_pushBit b h)

end Received

/-- Settles O38: from no bits received, `r` is what the start bits leave. -/
theorem assemblerLengthLaw : Obligations.AssemblerLengthLaw := by
  intro s bs hskip hrxcnt hbitcnt
  obtain ⟨hcount, hbits, hstart⟩ := bitsReceived_pushBits bs (bitsReceived_zero hskip hrxcnt hbitcnt)
  rw [pushBits_cfg, Nat.zero_add] at hcount hbits hstart
  exact ⟨hcount, hbits, hstart⟩

end Sys2Proof.Machine
end

section
/-!
PROOFS. The finalization of a message: the minima of its window (R151), the framer's checks in their order (R155 to
R159, R229), and the delivery of a captured frame (R160, R161).
-/

namespace Sys2Proof.Machine

section Shortest

variable {s : State}

/-- A minimum is `RX_END_PERIOD` or the length of an eligible event of its level: otherwise the next number up would
still be a lower bound (R151). -/
theorem windowMin_attained (s : State) (l : Level) : windowMin s l = s.cfg.rxEndPeriod ∨
    ∃ k, 2 ≤ k ∧ k + 3 ≤ s.rx.cwcnt ∧ (s.mem.readCw k).level = l ∧ (s.mem.readCw k).dur = windowMin s l := by
  by_contra hnone
  rw [not_or, not_exists] at hnone
  obtain ⟨hend, hevent⟩ := hnone
  refine absurd (le_windowMin (m := windowMin s l + 1) (lt_of_le_of_ne (windowMin_le s l) hend)
    fun k hlow hhigh hl => ?_) (Nat.not_succ_le_self _)
  exact lt_of_le_of_ne (windowMin_le_event hlow hhigh hl) fun heq => hevent k ⟨hlow, hhigh, hl, heq.symm⟩

/-- A level without an eligible event has no minimum of its own (R151). -/
theorem windowMin_of_no_eligible {l : Level}
    (h : ∀ k, 2 ≤ k → k + 3 ≤ s.rx.cwcnt → (s.mem.readCw k).level ≠ l) : windowMin s l = s.cfg.rxEndPeriod :=
  (windowMin_attained s l).resolve_right fun ⟨k, hlow, hhigh, hl, _⟩ => h k hlow hhigh hl

/-- In fewer than 6 events only event 2 can be eligible, so the level it does not have lacks a minimum (R152). -/
theorem causeNoMin_of_short (h : s.rx.cwcnt < 6) :
    causeNoMin s.cfg (windowMin s false) (windowMin s true) = true := by
  have honly : ∀ l, (s.mem.readCw 2).level ≠ l → s.cfg.rxEndPeriod ≤ windowMin s l := fun l hl =>
    (windowMin_of_no_eligible fun k hlow hhigh => by rwa [show k = 2 by omega]).ge
  rw [causeNoMin_iff]
  cases hlevel : (s.mem.readCw 2).level with
  | false => exact .inr (honly true (by simp [hlevel]))
  | true => exact .inl (honly false (by simp [hlevel]))

end Shortest

/-- Settles O42. -/
theorem minimaAreTheShortestEligible : Obligations.MinimaAreTheShortestEligible := fun s l =>
  ⟨windowMin_le s l, fun _ => windowMin_le_event, windowMin_attained s l⟩

/-- Settles O43: `NOMIN` is set, and a cause that is not zero makes the kind `BadTiming`. -/
theorem shortMessageIsBadTiming : Obligations.ShortMessageIsBadTiming := by
  intro s low hshort
  have hnomin : (finalize s).res.cause.getLsbD 0 = true := by
    rw [finalize_cause, causeNoMin_of_short hshort]
    simp only [causeOf_bits]
  refine ⟨effect (.gate low) s, exec_eq_effect _ s, (finalize_badTiming_iff s).mpr fun hzero => ?_, hnomin⟩
  rw [hzero] at hnomin
  exact absurd hnomin (by decide)

section Checks

variable {s : State}

/-- The second check of the framer: the bytes are too few (R155). -/
theorem verdict_of_tooShort (h : s.rx.rxcnt < s.cfg.minRxBytes) : verdict s 0 = .tooShort := by
  rw [verdict, if_neg (not_not.mpr rfl), if_pos h]

/-- The third check: the signature (R156). -/
theorem verdict_of_wrongSignature (hmin : s.cfg.minRxBytes ≤ s.rx.rxcnt) (h : sigOk s = false) :
    verdict s 0 = .signatureMismatch := by
  rw [verdict, if_neg (not_not.mpr rfl), if_neg (Nat.not_lt.mpr hmin), if_pos h]

/-- The fourth check: the length field, the payload it announces and the checksum byte were captured (R157, R158). -/
theorem verdict_of_incomplete (hmin : s.cfg.minRxBytes ≤ s.rx.rxcnt) (hsig : sigOk s = true)
    (h : s.rx.rxcnt < payloadAt s.cfg + rxLenField s + 1) : verdict s 0 = .lengthOverrun := by
  rw [verdict, if_neg (not_not.mpr rfl), if_neg (Nat.not_lt.mpr hmin), if_neg (by simp [hsig])]
  by_cases hhead : s.rx.rxcnt < payloadAt s.cfg
  · rw [if_pos hhead]
  · rw [if_neg hhead, if_pos (by omega)]

theorem rxLenField_one (hl : s.cfg.lenBytes = .one) : rxLenField s = (s.rxByte 4).toNat := by
  rw [rxLenField, hl]

theorem rxLenField_two (hl : s.cfg.lenBytes = .two) :
    rxLenField s = 256 * (s.rxByte 4).toNat + (s.rxByte 5).toNat := by
  rw [rxLenField, hl]

/-- The bytes the checksum is folded over are stored ones when they were captured (R159). -/
theorem wirePayload_stored {n : Nat} (h : payloadAt s.cfg + n ≤ s.rx.rxcnt) :
    wirePayload s n = (List.range n).map fun i => s.mem.readRxbuf (payloadAt s.cfg + i) :=
  List.map_congr_left fun i hi => rxByte_below (by have := List.mem_range.mp hi; omega)

/-- The bytes the signature test looks at are stored ones (R156). -/
theorem sigOk_iff_stored :
    sigOk s = true ↔ 4 ≤ s.rx.rxcnt ∧ ∀ i, i < 4 → s.mem.readRxbuf i = sig.getD i 0 := by
  rw [sigOk_iff]
  exact and_congr_right fun hcount => forall₂_congr fun i hi => by rw [rxByte_below (by omega)]

/-- Without the signature the kind is `SignatureMismatch`, or that of an earlier check (R156, R229). -/
theorem verdict_of_not_sigOk (h : sigOk s = false) (cause : BitVec 5) :
    verdict s cause = .badTiming ∨ verdict s cause = .tooShort ∨ verdict s cause = .signatureMismatch := by
  by_cases hcause : cause = 0
  · rw [hcause]
    rcases Nat.lt_or_ge s.rx.rxcnt s.cfg.minRxBytes with hshort | hmin
    · exact .inr (.inl (verdict_of_tooShort hshort))
    · exact .inr (.inr (verdict_of_wrongSignature hmin h))
  · exact .inl ((verdict_eq_badTiming_iff s cause).mpr hcause)

end Checks

/-- Settles O46: a lemma per check, and the bytes the last two look at are stored ones. -/
theorem firstFailingCheckNamesTheKind : Obligations.FirstFailingCheckNamesTheKind := by
  intro s cause
  refine ⟨(verdict_eq_badTiming_iff s cause).mpr, verdict_of_tooShort, verdict_of_wrongSignature,
    fun hmin hsig hhead => verdict_of_incomplete hmin hsig (by omega), fun hhead => ?_,
    fun hmin hsig _ => verdict_of_incomplete hmin hsig, fun hmin hsig hlen => ?_⟩
  · rw [payloadAt] at hhead
    cases hl : s.cfg.lenBytes with
    | one =>
      rw [hl, LenBytes.toNat] at hhead
      rw [rxLenField_one hl, rxByte_below (by omega)]
    | two =>
      rw [hl, LenBytes.toNat] at hhead
      rw [rxLenField_two hl, rxByte_below (by omega), rxByte_below (by omega)]
  · rw [verdict_of_complete hmin hsig hlen, wirePayload_stored (by omega), rxByte_below (by omega)]

/-- Settles O47: a missing or a wrong byte fails the signature test. -/
theorem wrongSignatureIsAlwaysRejected : Obligations.WrongSignatureIsAlwaysRejected := by
  intro s
  refine ⟨fun i hi hwrong => ?_, ?_⟩
  · have hsig : sigOk s = false := Bool.eq_false_iff.mpr fun hok => by
      obtain ⟨hcount, hbytes⟩ := sigOk_iff_stored.mp hok
      rcases hwrong with hmissing | hdiffers
      · omega
      · exact hdiffers (hbytes i hi)
    exact ⟨verdict_of_not_sigOk hsig, fun hmin => verdict_of_wrongSignature hmin hsig⟩
  · rw [sigOk_iff_stored]
    refine and_congr_right fun _ => ⟨fun h => ⟨h 0 (by decide), h 1 (by decide), h 2 (by decide), h 3 (by decide)⟩,
      fun ⟨h0, h1, h2, h3⟩ i hi => ?_⟩
    match i, hi with
    | 0, _ => exact h0
    | 1, _ => exact h1
    | 2, _ => exact h2
    | 3, _ => exact h3

/-- A payload that stands in `RXPAY` with its length is what the read port shows, `0x00` behind it (R71, R208). -/
theorem rdData_of_payload {s : State} {p : List Byte} (hlen : s.res.len = p.length)
    (hpay : ∀ i, i < p.length → s.mem.readRxpay i = p.getD i 0) (a : BitVec 16) : rdData s a = p.getD a.toNat 0 := by
  by_cases ha : a.toNat < p.length
  · rw [rdData_below (by rwa [hlen]), hpay _ ha]
  · rw [rdData_beyond (by omega), List.getD_eq_default _ _ (by omega)]

/-- Settles O49: the framer's view holds the frame, so the finalization posts it. -/
theorem capturedFrameIsDelivered : Obligations.CapturedFrameIsDelivered := by
  intro s p low _ hs hshort hcount hleast hbytes hbad hclear
  have hframe : HoldsFrame (framerView s) p := by
    constructor <;> rwa [framerView_cfg]
  obtain ⟨hposted, hpayload⟩ := finalize_of_holdsFrame hs hframe hbad hclear
  have hlen : (effect (.gate low) s).res.len = p.length := congrArg RxResult.len hposted
  exact ⟨effect (.gate low) s, exec_eq_effect _ s, congrArg RxResult.stat hposted, congrArg RxResult.cause hposted,
    hlen, congrArg RxResult.nbytes hposted, rdData_of_payload hlen hpayload⟩

end Sys2Proof.Machine
end

section
/-!
PROOFS. The cipher (R170 to R172): it is its own inverse, on a byte and on a whole payload.
-/

namespace Sys2Proof.Machine

/-- The key repeats with period 16, so a byte sees its offset modulo 16 only (R170, R171). -/
theorem keyByte_mod (c : Config) (i : Nat) : keyByte c (i % 16) = keyByte c i := by
  simp only [keyByte, Nat.mod_mod]

/-- Both passes count the offsets from the first byte, so every byte meets the same key byte twice (R171, R172). -/
theorem ciphAll_ciphAll (c : Config) (bs : List Byte) : ciphAll c (ciphAll c bs) = bs :=
  calc ciphAll c (ciphAll c bs)
    _ = bs.mapIdx fun i b => ciph c (ciph c b i) i := List.mapIdx_mapIdx
    _ = bs.mapIdx fun _ b => b := by simp only [ciph_ciph]
    _ = bs := List.ext_getElem List.length_mapIdx fun _ _ _ => List.getElem_mapIdx

/-- Settles O40: for the payload and for the single byte alike, the key byte cancels. -/
theorem cipherRoundTrip : Obligations.CipherRoundTrip := by
  intro c bs
  refine ⟨ciphAll_ciphAll c bs, fun b i => ⟨?_, ciph_ciph c b i⟩⟩
  rw [ciph, keyByte_mod]

end Sys2Proof.Machine
end

section
/-!
PROOFS. The host commands and the transmitter (R183, R192, R200 to R204): `TXGO` starts the pulse, and no command stops
a transmission that runs.
-/

namespace Sys2Proof.Machine

section Busy

variable {s : State}

/-- While a transmission runs no command writes the transmit registers or a buffer: the commands that would are
refused (R192, R202 to R204). -/
theorem effect_command_of_busy {i : Instr} (hi : i.isCommand = true) (hbusy : s.tx.phase ≠ .idle) :
    (effect i s).tx = s.tx ∧ (effect i s).mem = s.mem := by
  cases i with
  | txclr arg => rw [effect_txclr, if_neg hbusy]; exact ⟨rfl, rfl⟩
  | txpush arg => rw [effect_txpush, if_neg fun hroom => hbusy hroom.1]; exact ⟨rfl, rfl⟩
  | txgo arg => rw [effect_txgo, if_neg hbusy]; exact ⟨rfl, rfl⟩
  | nop | rxack | errclr | reserved67 | reserved8F => exact ⟨rfl, rfl⟩
  | _ => cases hi

theorem hostCmd_of_busy (v : Bool) (c : BitVec 12) (hbusy : s.tx.phase ≠ .idle) :
    (hostCmd v c s).tx = s.tx ∧ (hostCmd v c s).mem = s.mem := by
  cases v with
  | false => exact ⟨rfl, rfl⟩
  | true =>
    rw [← effect_decodeCommand]
    exact effect_command_of_busy (decodeCommand_isCommand c) hbusy

end Busy

/-- Settles O34: the step is `HOSTCMD`, whatever stands on the command port. -/
theorem noCommandStopsATransmission : Obligations.NoCommandStopsATransmission := by
  intro s t hs hr hbusy hstep
  obtain ⟨hc, -⟩ := step_cases hstep
  obtain rfl := Host.Outcome.next.inj ((step_hostSlot hc hr hs).symm.trans hstep)
  obtain ⟨htx, hmem⟩ := hostCmd_of_busy s.input.cmdValid s.input.cmd hbusy
  exact ⟨htx, fun i => congrArg (Memory.readTxbuf · i) hmem⟩

theorem sameOutsideTransmitter_startTx (s : State) : SameOutsideTransmitter s (startTx s) :=
  ⟨rfl, rfl, rfl, rfl, rfl, rfl, rfl⟩

/-- Settles O31: the phase alone decides between the start pulse and the refusal. -/
theorem txgoStartsThePulse : Obligations.TxgoStartsThePulse := by
  intro s arg
  refine ⟨decode_encode (.txgo arg), fun hidle => ⟨startTx s, ?_, rfl, rfl, rfl, rfl,
    sameOutsideTransmitter_startTx s⟩, fun hbusy => ?_⟩
  · rw [exec_eq_effect, effect_txgo, if_pos hidle]
  · rw [exec_eq_effect, effect_txgo, if_neg hbusy]
    rfl

end Sys2Proof.Machine
end

section
/-!
PROOFS. The host commands one by one (R200 to R209): what each writes and what none can touch, the acknowledgement in
the tick of the gate (R205, R230), and the configuration, which no step writes (R255, R256).
-/

namespace Sys2Proof.Machine

section Commands

variable {i : Instr}

theorem isGate_of_isCommand (hi : i.isCommand = true) : i.isGate = false := by
  cases i with
  | gate v => cases hi
  | _ => rfl

/-- No command writes the byte buffer of the receive path (R209). -/
theorem effect_command_rxbuf (hi : i.isCommand = true) (s : State) : (effect i s).mem.rxbuf = s.mem.rxbuf := by
  cases i with
  | txclr | txpush | txgo => simp only [effect_txclr, effect_txpush, effect_txgo]; split <;> rfl
  | nop | rxack | errclr | reserved67 | reserved8F => rfl
  | _ => cases hi

/-- Bit 3 of an opcode tells the two reserved rows apart (R97). -/
theorem opcode_bit3 : ∀ op : BitVec 4, op.getLsbD 3 = decide (8 ≤ op.toNat) := by decide

theorem decode_reserved67 {op : BitVec 4} (arg : Byte) (hlow : 6 ≤ op.toNat) (hhigh : op.toNat < 8) :
    decode (.command (commandWord op arg)) = .ok (.reserved67 (op.getLsbD 0) arg) := by
  have hbits := reservedOpcode_of_bits op hlow
  rw [if_neg (by rw [opcode_bit3, decide_eq_true_eq]; omega)] at hbits
  have hdecode := decodeCommand_reserved67 (op.getLsbD 0) arg
  rw [hbits] at hdecode
  exact congrArg Except.ok hdecode

theorem decode_reserved8F {op : BitVec 4} (arg : Byte) (hlow : 8 ≤ op.toNat) :
    decode (.command (commandWord op arg)) = .ok (.reserved8F (op.extractLsb' 0 3) arg) := by
  have hbits := reservedOpcode_of_bits op (by omega)
  rw [if_pos (by rw [opcode_bit3, decide_eq_true_eq]; exact hlow)] at hbits
  have hdecode := decodeCommand_reserved8F (op.extractLsb' 0 3) arg
  rw [hbits] at hdecode
  exact congrArg Except.ok hdecode

end Commands

/-- Settles O30: room decides between the write at `TXLEN`, which no other entry sees, and the refusal. -/
theorem txpushAppendsItsByte : Obligations.TxpushAppendsItsByte := by
  intro s arg
  refine ⟨decode_encode (.txpush arg), fun hs hidle hroom => ⟨_, exec_eq_effect _ s, ?_⟩, fun hrefused => ?_⟩
  · rw [effect_txpush, if_pos ⟨hidle, hroom⟩]
    exact ⟨rfl, readTxbuf_writeTxbuf _ _ hs, fun i hi => readTxbuf_writeTxbuf_other _ _ hi, writeTxbuf_readCw _ _ _,
      writeTxbuf_readRxbuf _ _ _, writeTxbuf_readRxpay _ _ _, rfl, rfl, rfl, rfl, rfl⟩
  · have hno : ¬(s.tx.phase = .idle ∧ s.tx.len < s.cfg.txbufCap) := fun ⟨hidle, hroom⟩ =>
      hrefused.elim (· hidle) (Nat.not_le.mpr hroom)
    rw [exec_eq_effect, effect_txpush, if_neg hno]
    rfl

/-- Settles O33: a command is not `GATE`, so of the results it writes the handshake flags at most, and each receive
buffer is as it was. -/
theorem commandsLeaveTheReceiverAlone : Obligations.CommandsLeaveTheReceiverAlone := by
  intro i s t hi hexec
  obtain rfl := Host.Outcome.next.inj ((exec_eq_effect i s).symm.trans hexec)
  obtain ⟨hrx, hcw⟩ := effect_command_window hi s
  have hrxbuf := effect_command_rxbuf hi s
  have hrxpay := effect_rxpay (s := s) (isGate_of_isCommand hi)
  refine ⟨effect_cfg i s, hrx, fun k => ?_, fun k => ?_, fun k => ?_, effect_res_handshake (isGate_of_isCommand hi)⟩
  · rw [Memory.readCw, hcw, Memory.readCw]
  · rw [Memory.readRxbuf, hrxbuf, Memory.readRxbuf]
  · rw [Memory.readRxpay, hrxpay, Memory.readRxpay]

section Gate

variable {s : State}

/-- A transition writes no result (R75). -/
theorem rxTransition_res (l : Level) (d : Nat) (s : State) : (rxTransition l d s).res = s.res := by
  unfold rxTransition
  cases s.rx.phase with
  | idle => rfl
  | start => simp
  | data => dsimp only; split <;> simp

/-- In the tick of the gate, whatever `rx_in`, the results are those of the finalization (R75, R111). -/
theorem rxStep_res_of_flagG (l : Level) (hG : flagG s = true) : (rxStep l s).res = (finalize s).res := by
  have hgate : (rxGate s).res = (finalize s).res := by rw [rxGate_of_flagG hG, setRx_res]
  simp only [rxStep]
  split_ifs
  · exact hgate
  · exact hgate
  · exact (rxTransition_res ..).trans hgate

theorem hostCmd_rxack (arg : Byte) (s : State) : hostCmd true (commandWord 0x4 arg) s = acknowledge s := by
  rw [← effect_decodeCommand, decodeCommand_commandWord]
  rfl

/-- Neither `TXSTEP` nor the acknowledgement touches what the gate looks at (R73, R205). -/
theorem flagG_acknowledge_txStep (s : State) : flagG (acknowledge (txStep s)) = flagG s := by
  have htx := sameOutsideTransmitter_txStep s
  have hdiff : (acknowledge (txStep s)).diff = s.diff := diff_of_rx htx.cfg (congrArg RxPath.elapsed htx.rx)
  rw [flagG, flagG, hdiff, acknowledge_rx, acknowledge_cfg, htx.rx, htx.cfg]

end Gate

/-- Settles O52: `HOSTCMD` runs before `RXSTEP` (R8), so the gate posts over flags that are already clear. -/
theorem acknowledgeDoesNotLoseANewResult : Obligations.AcknowledgeDoesNotLoseANewResult := by
  intro s arg hv hcmd hp hlate
  have hG : flagG (acknowledge (txStep s)) = true := by
    rw [flagG_acknowledge_txStep]
    exact (flagG_iff s).mpr ⟨hp, hlate⟩
  obtain ⟨hdone, hovr, -⟩ := finalize_posts_always (acknowledge (txStep s))
  rw [tick, hv, hcmd, hostCmd_rxack, rxStep_res_of_flagG _ hG]
  exact ⟨hdone, hovr⟩

/-- Settles O11: neither an instruction nor the move to the next operation writes the configuration, and a tick with
`rst = 1` loads the reset values of the configuration it finds. -/
theorem configurationNeverChanges : Obligations.ConfigurationNeverChanges := by
  intro s t hstep
  obtain ⟨-, ⟨-, rfl⟩ | ⟨-, -, rfl⟩ | ⟨-, w, i, -, -, -, rfl⟩⟩ := step_effect_cases hstep
  · rfl
  · exact advance_cfg ..
  · rw [advance_cfg, effect_cfg]

/-- Settles O28: the three commands have no condition. -/
theorem nopRxackErrclrNeverRefused : Obligations.NopRxackErrclrNeverRefused := fun s arg =>
  ⟨⟨decode_encode (.nop arg), decode_encode (.rxack arg), decode_encode (.errclr arg)⟩, exec_eq_effect (.nop arg) s,
    ⟨acknowledge s, exec_eq_effect (.rxack arg) s, rfl, rfl, rfl, rfl, rfl, rfl, rfl⟩,
    ⟨s.setCmdErr false, exec_eq_effect (.errclr arg) s, rfl, rfl, rfl, rfl, rfl, rfl, rfl⟩⟩

/-- Settles O29: the phase alone decides. -/
theorem txclrEmptiesThePayload : Obligations.TxclrEmptiesThePayload := by
  intro s arg
  refine ⟨decode_encode (.txclr arg), fun hidle => ⟨s.setTx { s.tx with len := 0 }, ?_, rfl, rfl, rfl, rfl, rfl, rfl,
    rfl⟩, fun hbusy => ?_⟩
  · rw [exec_eq_effect, effect_txclr, if_pos hidle]
  · rw [exec_eq_effect, effect_txclr, if_neg hbusy]
    rfl

/-- Settles O32: both reserved rows refuse, and the ten opcodes decode to them. -/
theorem reservedOpcodeOnlySetsCmdErr : Obligations.ReservedOpcodeOnlySetsCmdErr :=
  ⟨fun s lo hi arg => ⟨exec_eq_effect (.reserved67 lo arg) s, exec_eq_effect (.reserved8F hi arg) s⟩,
    fun _ arg => ⟨decode_reserved67 arg, decode_reserved8F arg⟩⟩

end Sys2Proof.Machine
end
